-- ==== Sys2Proof/Word.lean ====
section
/-! DEFINITION. The words of the Pelorin 12T's registers and records, and the names of its streams and lanes. -/

namespace Sys2Proof

/-- One byte of host memory. -/
abbrev Byte := BitVec 8

/-- A 32-bit register of the window (10.1). -/
abbrev Word32 := BitVec 32

/-- A span sequence, modulo 2^32 (R146). -/
abbrev Seq := BitVec 32

/-- A stream number, 0 to 11 (00_scope, Streams and lanes). -/
abbrev StreamId := Fin 12

/-- A lane number: left 0, centre 1, right 2 (00_scope, Streams and lanes). -/
abbrev Lane := Fin 3

end Sys2Proof
end

