-- ==== Sys2Proof/Syntax.lean ====
section
/-! DEFINITION. The commands of the part: one constructor per row of spec/opcode_table.json. -/

namespace Sys2Proof

/-- The command fields that no command has (R184 step 4). -/
inductive UndefinedCode where
  | zero
  | seven
  deriving DecidableEq, Repr

/-- What causes a device reset (R183). A DEVCTL write of 1 to RESET carries some ENABLE bit with it (R182). -/
inductive ResetCause where
  | powerOn
  | functionLevelReset
  | devctlWrite (enable : Bool)
  deriving DecidableEq, Repr

/-- How many message vectors the host has granted (R192). -/
inductive VectorCount where
  | one
  | two
  | four
  deriving DecidableEq, Repr

/-- What the PCIe Port reports of one read: the bytes read, lowest address first, or none when the read failed (09.6). -/
abbrev ReadResult := Option (List Byte)

/-- The commands. A CMD write carries the stream field, SKIP and tag it writes; a read report carries what was read. -/
inductive Instr where
  /-- OPEN (R118, R184). -/
  | cmdOpen (stream : BitVec 4) (skip : Bool) (tag : BitVec 16)
  /-- STOP (R122, R184). -/
  | cmdStop (stream : BitVec 4) (skip : Bool) (tag : BitVec 16)
  /-- ABORT (R124, R184). -/
  | cmdAbort (stream : BitVec 4) (skip : Bool) (tag : BitVec 16)
  /-- RESUME (R127, R184). -/
  | cmdResume (stream : BitVec 4) (skip : Bool) (tag : BitVec 16)
  /-- CLOSE (R128, R184). -/
  | cmdClose (stream : BitVec 4) (skip : Bool) (tag : BitVec 16)
  /-- POLL (R129, R184). -/
  | cmdPoll (stream : BitVec 4) (skip : Bool) (tag : BitVec 16)
  /-- UNDEFINED_COMMAND: a CMD write with command field 0 or 7 (R184). -/
  | cmdUndefined (code : UndefinedCode) (stream : BitVec 4) (skip : Bool) (tag : BitVec 16)
  /-- COMMAND_DISPATCH (R185). -/
  | commandDispatch
  /-- ENABLE: a DEVCTL write with bit 1 clear (R180, R182). -/
  | enable (on : Bool)
  /-- DEVICE_RESET (R183). -/
  | deviceReset (cause : ResetCause)
  /-- DEVSTAT_CLEAR: the word written to DEVSTAT (R186). -/
  | devstatClear (value : Word32)
  /-- EVLATCH_CLEAR: the word written to EVLATCH (R191). -/
  | evlatchClear (value : Word32)
  /-- EVMAP_WRITE: the word written to EVMAP (R192). -/
  | evmapWrite (value : Word32)
  /-- REGISTER_WRITE: a write of `size` bytes at `offset` of the window (R182). -/
  | registerWrite (offset : BitVec 6) (size : Nat) (value : Word32)
  /-- MESSAGE_SIGNALLING_CHANGE: the host enables or disables message signalling and grants vectors (R192). -/
  | messageSignallingChange (enabled : Bool) (vectors : VectorCount)
  /-- FETCH_GRANT (R174). -/
  | fetchGrant
  /-- LANE_READ_DONE: one result per lane of the stream (R6). -/
  | laneReadDone (lanes : List ReadResult)
  /-- HEADER_READ_DONE (R144). -/
  | headerReadDone (data : ReadResult)
  /-- MARKS_READ_DONE (R23). -/
  | marksReadDone (data : ReadResult)
  /-- TAKE_PROFILE_READ_DONE (R147). -/
  | takeProfileReadDone (data : ReadResult)
  /-- WAIT_READ_DONE (R149). -/
  | waitReadDone (data : ReadResult)
  /-- ENTRY_READ_DONE (R187). -/
  | entryReadDone (data : ReadResult)
  /-- OPEN_PROFILE_READ_DONE (R120). -/
  | openProfileReadDone (data : ReadResult)
  /-- POLL_TIMER_EXPIRY of one stream's timer (R150). -/
  | pollTimerExpiry (stream : StreamId)
  /-- ENGINE_GRANT (R171). -/
  | engineGrant
  /-- BLOCK_END (R172). -/
  | blockEnd
  /-- ROLLBACK of one stream (R137). -/
  | rollback (stream : StreamId)
  /-- WRITE_DONE: the issued write at `index`, oldest first, is reported done or failed (R175). -/
  | writeDone (index : Nat) (ok : Bool)
  deriving DecidableEq, Repr

end Sys2Proof
end

