-- ==== Sys2Proof/Config.lean ====
section
/-! DEFINITION. What the manual fixes as numbers, and the one free value it leaves open. -/

namespace Sys2Proof.Config

/-- The greatest magnitude of an internal sample (00_scope, Samples). -/
def sampleMax : Int := 8388607

/-- The internal void mark (00_scope, Samples). -/
def voidMark : Int := -8388608

/-- The bound of a template bin, (2^23 - 1) * 256 (R39). -/
def binMax : Int := 2147483392

/-- Samples in a block (R168). -/
def blockLength : Nat := 1024

/-- Voted samples in an outlier window (R17). -/
def outlierWindow : Nat := 65536

/-- The longest repair window (R73). -/
def windowLimit : Nat := 4096

/-- The greatest peak residual of a log entry (R72). -/
def peakMax : Nat := 16777215

/-- The content of the ID register (10.1): revision 1, part code 0x0C1, vendor code 0x3A91. -/
def idWord : Word32 := 0x10C13A91#32

/-- FREE VALUE (log entry 3): whether the PCIe Port can send the n-th message (R192: "When the PCIe Port cannot send a
message, for example because the host has disabled bus mastering, the message is discarded"). -/
opaque portSends : Nat → Bool

end Sys2Proof.Config
end

