-- ==== Sys2Proof/Machine/State.lean ====
section
/-! DEFINITION. Everything the spec gives the part to hold: registers, streams, signal contexts, queues, arbiters. -/

namespace Sys2Proof.Machine

/-- No command of the part stops it: bus faults and failed spans are effects on State (R125, R177, R178). -/
inductive Fault where
  deriving DecidableEq, Repr

/-- Refusals of the model. -/
inductive Refusal where
  /-- Raised by no meaning: it stands for a command that has none yet. Safe: the model stops where the part goes on. -/
  | notModelled (mnemonic : String)
  deriving DecidableEq, Repr

/-! ## Samples and lanes (chapter 1) -/

/-- Where a void comes from (1.2). -/
inductive VoidOrigin where
  | scanner
  | fetch
  deriving DecidableEq, Repr

/-- A sample at any stage: a value in sample units, or a void with its origin (R5, R7). -/
inductive Sample where
  | value (x : Int)
  | void (origin : VoidOrigin)
  deriving DecidableEq, Repr

/-- L16 or L24 (1.1, R102). -/
inductive Format where
  | l16
  | l24
  deriving DecidableEq, Repr

inductive ByteOrder where
  | little
  | big
  deriving DecidableEq, Repr

/-- lane_count (R1). -/
inductive LaneCount where
  | one
  | three
  deriving DecidableEq, Repr

/-- The lane configuration (R1) and the output configuration (R102) of a stream. -/
structure StreamConfig where
  laneCount : LaneCount
  laneFormat : Format
  laneOrder : ByteOrder
  outputFormat : Format
  outputOrder : ByteOrder
  deriving DecidableEq, Repr

/-- The lane samples of one position (R7). -/
inductive LaneRow where
  | one (a : Sample)
  | three (a b c : Sample)
  deriving DecidableEq, Repr

/-- The lane state (1.5). `history` is the prediction history, most recent value first, at most two values (R14). -/
structure LaneState where
  retired : Option Lane
  counts : Vector Nat 3
  counter : Nat
  history : List Int
  deriving DecidableEq, Repr

/-! ## Profiles (10.8, R133) -/

/-- A profile record as read, or the held values after range limits. -/
structure Profile where
  disputeTol : Nat
  retireLimit : Nat
  perfShift : Nat
  linePeriod : Nat
  lineShift : Nat
  spliceHumReset : Nat
  clickFactor : Nat
  clickFloor : Nat
  noiseMin : Nat
  guard : Nat
  repairMax : Nat
  spliceWidth : Nat
  splitShift : Nat
  envShift : Nat
  refMult : Nat
  gainFloor : Nat
  hissInitial : Nat
  hissMin : Nat
  hissMax : Nat
  deriving DecidableEq, Repr

/-! ## Frame marks (chapter 2) -/

/-- An entry of a marks list (2.1). -/
structure Mark where
  offset : Nat
  frameStart : Bool
  protect : Bool
  hissRef : Bool
  splice : Bool
  deriving DecidableEq, Repr

/-- A span's mark schedule (R25, R26): accepted in-span marks and kept look-ahead marks; `offset` holds the absolute
position here. -/
structure Schedule where
  accepted : List Mark
  lookAhead : List Mark
  deriving DecidableEq, Repr

/-- The mark state (R28). -/
structure MarkState where
  pk : Option Nat
  period : Option Nat
  protect : Bool
  hissRef : Bool
  bumpEnd : Option Nat
  deriving DecidableEq, Repr

/-! ## Hum canceller (chapter 3) -/

/-- A template: its bins that are not zero, in rising order of bin; a bin not listed holds 0 (R39; log entry 25). -/
structure Template where
  cells : List (Nat × Int)
  deriving DecidableEq, Repr

/-- Tp, Tl and the line sample counter (R39). The hum parameters in force are the applied profile's (R41). -/
structure HumState where
  perf : Template
  line : Template
  counter : Nat
  deriving DecidableEq, Repr

/-! ## Click repairer (chapter 4) -/

/-- A held sample (R59). `span` names the span that contains it by the absolute position of that span's first sample (log
entry 22); `absE` is |e| when the sample was examined. -/
structure Held where
  pos : Nat
  span : Nat
  u : Sample
  unresolved : Bool
  prot : Bool
  bump : Bool
  refEnd : Bool
  absE : Option Nat
  flagged : Bool
  deriving DecidableEq, Repr

/-- A window's content (R72). -/
structure Content where
  prot : Bool
  splice : Bool
  voids : Nat
  scanner : Bool
  fetch : Bool
  unresolved : Bool
  peak : Nat
  deriving DecidableEq, Repr

/-- The open-window record (R59). `content` is that of the samples up to nlast; `tail` holds the samples after nlast
(R72), whose number is the quiet run. -/
structure Window where
  start : Nat
  span : Nat
  nlast : Nat
  quiet : Nat
  long : Bool
  guard : Nat
  longest : Nat
  left : Option Sample
  content : Content
  tail : List Held
  deriving DecidableEq, Repr

/-- The state of the Click Repairer (R59). `uHist` is most recent first. The per-span report tallies stand in the signal
context. -/
structure ClickState where
  uHist : List Sample
  noise : Int
  held : List Held
  window : Option Window
  lastOut : Option Sample
  prevEnd : Option Nat
  deriving DecidableEq, Repr

/-! ## Hiss expander (chapter 5) -/

/-- The seven held values of R90. -/
structure HissParams where
  splitShift : Nat
  envShift : Nat
  initial : Nat
  refMult : Nat
  thMin : Nat
  thMax : Nat
  gainFloor : Nat
  deriving DecidableEq, Repr

/-- Lq, E, Th, the previous span and the two parameter sets (R91, R92). -/
structure HissState where
  low : Int
  env : Int
  th : Int
  prevSpan : Option Nat
  inUse : HissParams
  pendingParams : Option HissParams
  deriving DecidableEq, Repr

/-! ## Report tallies (8.1) -/

/-- Which lanes are active (R20): bit k is lane k. -/
abbrev LaneMask := BitVec 3

/-- The report tallies of one span (R156, R162), with the span's place in its reel and its log capacity. -/
structure Tally where
  start : Nat
  count : Nat
  capacity : Nat
  samplesOutput : Nat
  logWritten : Nat
  logLost : Nat
  clickWindows : Nat
  voidWindows : Nat
  spliceWindows : Nat
  protectedWindows : Nat
  longWindows : Nat
  repaired : Nat
  voidRepaired : Nat
  voidPassed : Nat
  disputed : Nat
  unresolved : Nat
  fetchFailed : Nat
  fetchVoid : Nat
  marksIgnored : Nat
  phaseOverruns : Nat
  humClamps : Nat
  saturations : Nat
  retirements : Nat
  reinstatements : Nat
  mask : Option LaneMask
  thEnd : Option Nat
  clamped : Bool
  votedCrc : Word32
  outputCrc : Word32
  deriving DecidableEq, Repr

/-! ## Signal contexts (R113) -/

structure SignalContext where
  config : StreamConfig
  lanes : LaneState
  marks : MarkState
  hum : HumState
  click : ClickState
  hiss : HissState
  profile : Profile
  position : Nat
  reelEnd : Bool
  pendingClamp : Bool
  tallies : List Tally
  deriving DecidableEq, Repr

/-- A checkpoint slot's content: the copy and the address of the span it was taken for (R135). -/
structure Checkpoint where
  ctx : SignalContext
  span : Nat
  deriving DecidableEq, Repr

/-! ## Spans and chains (chapter 7) -/

/-- A span header (7.1, 10.8). -/
structure Header where
  state : Nat
  notify : Bool
  last : Bool
  freshLanes : Bool
  resetHum : Bool
  protectAll : Bool
  sequence : Seq
  count : Nat
  lane0 : Nat
  lane1 : Nat
  lane2 : Nat
  marksAddr : Nat
  markCount : Nat
  logCapacity : Nat
  logAddr : Nat
  outputAddr : Nat
  profileAddr : Nat
  link : Nat
  deriving DecidableEq, Repr

/-- Completion codes (10.8). -/
inductive Completion where
  | ok
  | skipped
  | descFault
  | descInvalid
  | sequence
  | marksFault
  | profileFault
  | outputFault
  | stateFault
  deriving DecidableEq, Repr

/-- An entry of the taken-span list (R116, R147). `tid` is the model's own name for it (log entry 22). `start` is the
absolute position of the span's first sample once it has begun. `staged` and `processed` count its blocks (R169). `final`
holds its tallies once its samples have left the data path (R107, R164). -/
structure Taken where
  tid : Nat
  addr : Nat
  header : Header
  marks : List Mark
  profile : Option Profile
  expBefore : Option Seq
  start : Option Nat
  slot : Option Bool
  staged : Nat
  processed : Nat
  final : Option Tally
  givingBack : Bool
  deriving DecidableEq, Repr

/-- The chain position (R116, R140): the anchor whose next-link is read next, or a span address. -/
inductive ChainPosition where
  | none
  | anchor (addr : Nat)
  | span (addr : Nat)
  deriving DecidableEq, Repr

/-- The anchor (R140): its next-link as the snapshot holds it, and whether it reads FINISHED. -/
structure Anchor where
  addr : Nat
  sequence : Seq
  link : Nat
  finished : Bool
  deriving DecidableEq, Repr

/-- The wait target (R140, R149). -/
inductive WaitTarget where
  | none
  | link
  | state
  deriving DecidableEq, Repr

/-- A bypass entry (R195). -/
structure Bypass where
  skipped : Nat
  sequence : Seq
  link : Nat
  preceding : Nat
  deriving DecidableEq, Repr

/-- The chain context (R140), less the taken-ahead snapshot, which is the not begun entry of the taken-span list. -/
structure Chain where
  anchor : Option Anchor
  expected : Option Seq
  wait : WaitTarget
  bypass : List Bypass
  deriving DecidableEq, Repr

/-! ## Stream records (R116) -/

inductive StreamState where
  | closed
  | opening
  | running
  | awaitLink
  | stopping
  | aborting
  | halting
  | stopped
  | halted
  deriving DecidableEq, Repr

/-- The failing-span record (R116). -/
structure FailRecord where
  addr : Nat
  code : Completion
  deriving DecidableEq, Repr

/-- What the rollback of a halt needs of the failing span (R137, R146, R164): `tid` when it stands in the taken-span
list, else its sequence echo and the expectation when it was tried. -/
structure Halt where
  addr : Nat
  code : Completion
  tid : Option Nat
  echo : Seq
  expBefore : Option Seq
  deriving DecidableEq, Repr

inductive OpenCode where
  | entryInvalid
  | profileFault
  deriving DecidableEq, Repr

/-- The progress counters (R188). -/
structure Counters where
  lastAddr : Nat
  lastSeq : Seq
  released : BitVec 32
  samples : BitVec 64
  deriving DecidableEq, Repr

/-- The lane staging store's block (R169): its span, its number, its samples and the containers of each lane, or none
for a lane whose read failed (R6). -/
structure Staged where
  tid : Nat
  block : Nat
  count : Nat
  lanes : List ReadResult
  deriving DecidableEq, Repr

/-- Why a FINISHED anchor is written RELEASED (R152). -/
inductive ReleaseWhy where
  | take
  | skip
  | close
  deriving DecidableEq, Repr

/-- What a write is (R175, R176). Containers and log entries are data writes; every other write is ordered. -/
inductive WriteTag where
  | container (tid : Nat)
  | logEntry (tid : Nat)
  | report (tid : Nat)
  | finish (tid : Nat) (released : Bool)
  | active
  | giveBack (tid : Nat)
  | anchorRelease (why : ReleaseWhy) (sequence : Seq)
  | skipCode
  | skipReleased
  | rollback
  | progress
  deriving DecidableEq, Repr

structure Write where
  addr : Nat
  bytes : List Byte
  tag : WriteTag
  deriving DecidableEq, Repr

/-- One stream: its stream record (R116), progress counters (R188), chain context (R140), signal context (R113), poll
timer (R150), staging store (R169) and write queue (R175). `owed` holds the stream states of the progress records that wait
for the report of an anchor's RELEASED word, oldest first (R190; log entry 18). -/
structure Stream where
  state : StreamState
  tag : BitVec 16
  position : ChainPosition
  taken : List Taken
  slot0 : Option Checkpoint
  slot1 : Option Checkpoint
  failing : Option FailRecord
  halt : Option Halt
  skip : Option Nat
  openCode : Option OpenCode
  progressAddr : Option Nat
  counters : Counters
  ctx : Option SignalContext
  schedule : Option Schedule
  chain : Chain
  timer : Option Nat
  readDue : Bool
  pollAgain : Bool
  openDue : Bool
  staging : Option Staged
  queue : List Write
  flushMade : Bool
  gaveBack : Bool
  owed : List StreamState
  takes : Nat
  deriving DecidableEq, Repr

/-! ## Device-wide state -/

/-- The result field of CMD (10.1). -/
inductive CmdResult where
  | none
  | pending
  | accepted
  | refusedState
  | refusedTag
  | refusedStream
  | refusedDisabled
  deriving DecidableEq, Repr

/-- The CMD register (10.1, R184). -/
structure CmdReg where
  stream : BitVec 4
  code : BitVec 3
  skip : Bool
  result : CmdResult
  tag : BitVec 16
  deriving DecidableEq, Repr

/-- The event causes, in the order of EVLATCH (10.7). -/
inductive Cause where
  | spanNotify
  | attention
  | stopped
  | laneChange
  | deviceFault
  deriving DecidableEq, Repr

/-- A message the part has sent or tried to send (R192). -/
structure Message where
  cause : Cause
  vector : Nat
  sent : Bool
  deriving DecidableEq, Repr

/-- One read of host memory the part has issued. -/
structure ReadReq where
  addr : Nat
  len : Nat
  deriving DecidableEq, Repr

/-- A reel table entry that passed its checks (R118, R187). -/
structure ReelEntry where
  config : StreamConfig
  head : Nat
  profileAddr : Nat
  progressAddr : Nat
  deriving DecidableEq, Repr

/-- What the fetch transaction in progress is doing (R174). -/
inductive FetchPhase where
  | lane (tid block count : Nat) (reads : List ReadReq)
  | header (addr : Nat)
  | marks (addr : Nat) (header : Header)
  | profile (addr : Nat) (header : Header) (marks : List Mark)
  | active (addr : Nat) (header : Header) (marks : List Mark) (profile : Option Profile)
  | wait (target : WaitTarget) (addr : Nat) (whole : Bool) (stale : Bool)
  | skip (addr : Nat) (header : Header)
  | entry (addr : Nat)
  | openProfile (entry : ReelEntry)
  deriving DecidableEq, Repr

structure FetchTxn where
  stream : StreamId
  phase : FetchPhase
  deriving DecidableEq, Repr

/-- The stream the Restoration Engine serves and the lane changes made in the block or flush (R171, R172). -/
structure Serving where
  stream : StreamId
  laneChanges : Nat
  deriving DecidableEq, Repr

/-- A write issued and not yet reported (R175). -/
structure Issued where
  stream : StreamId
  write : Write
  deriving DecidableEq, Repr

/-- The whole part, and the commands that wait for it. -/
structure State where
  enable : Bool
  faults : BitVec 4
  lastFault : BitVec 4
  polliv : BitVec 16
  tbaseLo : Word32
  tbaseHi : Word32
  cmd : CmdReg
  evlatch : BitVec 5
  evmap : BitVec 15
  intx : Bool
  msgEnabled : Bool
  msgVectors : VectorCount
  messages : List Message
  engineLast : StreamId
  engine : Option Serving
  fetchLast : StreamId
  fetch : Option FetchTxn
  writeLast : StreamId
  issued : List Issued
  streams : Vector Stream 12
  pending : List Instr
  deriving DecidableEq, Repr

/-! ## Reset (R116, R140, R181, R183, R188) -/

def Chain.empty : Chain :=
  { anchor := none, expected := none, wait := .none, bypass := [] }

def Counters.zero : Counters :=
  { lastAddr := 0, lastSeq := 0, released := 0, samples := 0 }

/-- A stream after a device reset: CLOSED, tag 0, no context (R116, R183). -/
def Stream.closed : Stream :=
  { state := .closed, tag := 0, position := .none, taken := [], slot0 := none, slot1 := none, failing := none
    halt := none, skip := none, openCode := none, progressAddr := none, counters := Counters.zero, ctx := none
    schedule := none, chain := Chain.empty, timer := none, readDue := false, pollAgain := false, openDue := false
    staging := none, queue := [], flushMade := false, gaveBack := false, owed := [], takes := 0 }

def CmdReg.zero : CmdReg :=
  { stream := 0, code := 0, skip := false, result := .none, tag := 0 }

/-- The part right after power-on (R183, table of 10.1). Message signalling is off with one vector (log entry 1). -/
def State.reset : State :=
  { enable := false, faults := 0, lastFault := 0, polliv := 100, tbaseLo := 0, tbaseHi := 0, cmd := CmdReg.zero
    evlatch := 0, evmap := 0x7FFF#15, intx := false, msgEnabled := false, msgVectors := .one, messages := []
    engineLast := 11, engine := none, fetchLast := 11, fetch := none, writeLast := 11, issued := []
    streams := Vector.replicate 12 Stream.closed, pending := [] }

end Sys2Proof.Machine
end

