-- ==== Sys2Proof/Machine/Bytes.lean ====
section
/-! DEFINITION. Exact arithmetic, little-endian fields and the CRC-32 of the signatures. -/

namespace Sys2Proof.Machine

/-- Clamp to [lo, hi] (00_scope, Arithmetic). -/
def clampTo (lo hi x : Int) : Int :=
  if x < lo then lo else if hi < x then hi else x

/-- Clamp to the internal range (00_scope, Samples). -/
def clampSample (x : Int) : Int :=
  clampTo (-Config.sampleMax) Config.sampleMax x

/-- The number that bytes hold, least significant byte first (R193). -/
def leNat : List Byte → Nat
  | [] => 0
  | b :: bs => b.toNat + 256 * leNat bs

/-- The `n` low bytes of a number, least significant byte first (R193). -/
def leBytes : Nat → Nat → List Byte
  | 0, _ => []
  | n + 1, v => BitVec.ofNat 8 v :: leBytes n (v / 256)

/-- The field of `len` bytes at offset `off` of a record (R193). -/
def fieldAt (record : List Byte) (off len : Nat) : Nat :=
  leNat ((record.drop off).take len)

/-- The `n` low bytes of an integer in two's complement, least significant byte first. -/
def intBytes (n : Nat) (x : Int) : List Byte :=
  leBytes n (x % (256 ^ n : Nat)).toNat

/-- A two's complement number of `bits` bits. -/
def signedValue (bits v : Nat) : Int :=
  (BitVec.ofNat bits v).toInt

/-- Bytes in the order of a container (R2, R105): little endian as they are, big endian reversed. -/
def inOrder (order : ByteOrder) (bytes : List Byte) : List Byte :=
  match order with
  | .little => bytes
  | .big => bytes.reverse

/-- The start value of a signature register (R108). -/
def crcStart : Word32 :=
  0xFFFFFFFF#32

/-- One shift of the signature register (R108). -/
def crcShift (r : Word32) : Word32 :=
  if r.getLsbD 0 then (r >>> 1) ^^^ 0xEDB88320#32 else r >>> 1

/-- One byte into the signature register (R108). -/
def crcByte (r : Word32) (b : Byte) : Word32 :=
  crcShift (crcShift (crcShift (crcShift (crcShift (crcShift (crcShift (crcShift (r ^^^ b.setWidth 32))))))))

/-- A sequence of bytes into the signature register (R108). -/
def crcBytes (r : Word32) (bytes : List Byte) : Word32 :=
  bytes.foldl crcByte r

/-- The signature that a register gives (R108): every bit inverted. -/
def crcFinish (r : Word32) : Word32 :=
  ~~~r

end Sys2Proof.Machine
end

