-- ==== Sys2Proof/Machine/Operands.lean ====
section
/-! DEFINITION. The operands of the commands: records read from host memory, profile limits, and the register window's
layout (10.1, 10.8, R133). -/

namespace Sys2Proof.Machine

/-! ## Command codes (10.1) -/

def codeOpen : BitVec 3 := 1#3
def codeStop : BitVec 3 := 2#3
def codeAbort : BitVec 3 := 3#3
def codeResume : BitVec 3 := 4#3
def codeClose : BitVec 3 := 5#3
def codePoll : BitVec 3 := 6#3

/-- The command field of an undefined command (R184 step 4). -/
def undefinedBits : UndefinedCode → BitVec 3
  | .zero => 0#3
  | .seven => 7#3

/-- A stream field that names a stream (R184 step 3). -/
def streamOf? (f : BitVec 4) : Option StreamId :=
  if h : f.toNat < 12 then some ⟨f.toNat, h⟩ else none

/-- A stream number as DEVSTAT shows it (R186). -/
def streamBits (k : StreamId) : BitVec 4 :=
  BitVec.ofNat 4 k.val

def vectorCount : VectorCount → Nat
  | .one => 1
  | .two => 2
  | .four => 4

def resultBits : CmdResult → BitVec 3
  | .none => 0#3
  | .pending => 1#3
  | .accepted => 2#3
  | .refusedState => 3#3
  | .refusedTag => 4#3
  | .refusedStream => 5#3
  | .refusedDisabled => 6#3

/-! ## Read results (09.6) -/

/-- The bytes of a read of `n` bytes. A read fails when it ends without valid data, and a report without exactly the
bytes asked for has none (log entry 6). -/
def validData (n : Nat) : ReadResult → ReadResult
  | none => none
  | some bytes => if bytes.length = n then some bytes else none

/-! ## Reel table entry (R118, R187) -/

def formatOf? : Nat → Option Format
  | 0 => some .l16
  | 1 => some .l24
  | _ => none

def orderOf? : Nat → Option ByteOrder
  | 0 => some .little
  | 1 => some .big
  | _ => none

def laneCountOf? : Nat → Option LaneCount
  | 1 => some .one
  | 3 => some .three
  | _ => none

/-- A progress address is usable when it is nonzero and 64-byte aligned (R119). -/
def progressUsable (addr : Nat) : Bool :=
  addr != 0 && addr % 64 == 0

def entryProgress (bytes : List Byte) : Nat :=
  fieldAt bytes 0x18 8

/-- The five configuration bytes of an entry, when each holds a defined value (R187). -/
def entryConfig? (bytes : List Byte) : Option StreamConfig :=
  match laneCountOf? (fieldAt bytes 0 1), formatOf? (fieldAt bytes 1 1), orderOf? (fieldAt bytes 2 1),
    formatOf? (fieldAt bytes 3 1), orderOf? (fieldAt bytes 4 1) with
  | some n, some lf, some lo, some outF, some outO =>
      some { laneCount := n, laneFormat := lf, laneOrder := lo, outputFormat := outF, outputOrder := outO }
  | _, _, _, _, _ => none

/-- The checks of R118 on an entry that was read. -/
def parseEntry? (bytes : List Byte) : Option ReelEntry :=
  match entryConfig? bytes with
  | none => none
  | some cfg =>
      let head := fieldAt bytes 0x08 8
      let prof := fieldAt bytes 0x10 8
      let progress := entryProgress bytes
      if head ≠ 0 ∧ prof ≠ 0 ∧ prof % 64 = 0 ∧ progressUsable progress then
        some { config := cfg, head := head, profileAddr := prof, progressAddr := progress }
      else none

/-! ## Span headers (R145, 10.8) -/

/-- State words (10.8). -/
def wordPosted : Nat := 1
def wordActive : Nat := 2
def wordFinished : Nat := 3
def wordReleased : Nat := 4
def wordFailed : Nat := 5

def parseHeader (bytes : List Byte) : Header :=
  let flags := fieldAt bytes 0x04 4
  { state := fieldAt bytes 0x00 4
    notify := flags.testBit 0
    last := flags.testBit 1
    freshLanes := flags.testBit 2
    resetHum := flags.testBit 3
    protectAll := flags.testBit 4
    sequence := BitVec.ofNat 32 (fieldAt bytes 0x08 4)
    count := fieldAt bytes 0x0C 4
    lane0 := fieldAt bytes 0x10 8
    lane1 := fieldAt bytes 0x18 8
    lane2 := fieldAt bytes 0x20 8
    marksAddr := fieldAt bytes 0x28 8
    markCount := fieldAt bytes 0x30 4
    logCapacity := fieldAt bytes 0x34 4
    logAddr := fieldAt bytes 0x38 8
    outputAddr := fieldAt bytes 0x40 8
    profileAddr := fieldAt bytes 0x48 8
    link := fieldAt bytes 0x50 8 }

/-- Nonzero and 4-byte aligned. -/
def bufferAddrOk (addr : Nat) : Bool :=
  addr != 0 && addr % 4 == 0

/-- The lane addresses of the lanes a stream has (R1). -/
def laneAddrs (n : LaneCount) (h : Header) : List Nat :=
  match n with
  | .one => [h.lane0]
  | .three => [h.lane0, h.lane1, h.lane2]

/-- The checks of R145, in one: each that fails ends the take with the same code. -/
def headerValid (n : LaneCount) (h : Header) : Bool :=
  (h.count ≤ 65536 && (256 ≤ h.count || (h.last && 1 ≤ h.count))) &&
  (h.markCount ≤ 512 && (h.markCount == 0 || bufferAddrOk h.marksAddr)) &&
  (h.logCapacity ≤ 4096 && (h.logCapacity == 0 || bufferAddrOk h.logAddr)) &&
  (laneAddrs n h).all bufferAddrOk &&
  bufferAddrOk h.outputAddr &&
  (h.profileAddr == 0 || h.profileAddr % 64 == 0)

/-! ## Marks lists (10.8) -/

def parseMark (bytes : List Byte) : Mark :=
  let flags := fieldAt bytes 4 4
  { offset := fieldAt bytes 0 4
    frameStart := flags.testBit 0
    protect := flags.testBit 1
    hissRef := flags.testBit 2
    splice := flags.testBit 3 }

/-- The first `n` entries of a marks list, in list order (R23). -/
def parseMarks : Nat → List Byte → List Mark
  | 0, _ => []
  | n + 1, bytes => parseMark bytes :: parseMarks n (bytes.drop 8)

/-! ## Profiles (10.8, R133) -/

def parseProfile (bytes : List Byte) : Profile :=
  { disputeTol := fieldAt bytes 0x00 2
    retireLimit := fieldAt bytes 0x02 2
    perfShift := fieldAt bytes 0x04 2
    linePeriod := fieldAt bytes 0x06 2
    lineShift := fieldAt bytes 0x08 2
    spliceHumReset := fieldAt bytes 0x0A 2
    clickFactor := fieldAt bytes 0x0C 2
    clickFloor := fieldAt bytes 0x0E 2
    noiseMin := fieldAt bytes 0x10 2
    guard := fieldAt bytes 0x12 2
    repairMax := fieldAt bytes 0x14 2
    spliceWidth := fieldAt bytes 0x16 2
    splitShift := fieldAt bytes 0x18 2
    envShift := fieldAt bytes 0x1A 2
    refMult := fieldAt bytes 0x1C 2
    gainFloor := fieldAt bytes 0x1E 2
    hissInitial := fieldAt bytes 0x20 4
    hissMin := fieldAt bytes 0x24 4
    hissMax := fieldAt bytes 0x28 4 }

/-- A value below `lo` becomes `lo`, one above `hi` becomes `hi`. -/
def limitNat (lo hi x : Nat) : Nat :=
  if x < lo then lo else if hi < x then hi else x

/-- As `limitNat`, but 0 stays 0 (perf_shift and line_period, 3.2). -/
def limitOrZero (lo hi x : Nat) : Nat :=
  if x = 0 then 0 else limitNat lo hi x

/-- The held values of a profile: R40 (hum), R61 (click), R90 (hiss), R133 (splice_width). dispute_tol, retire_limit and
click_floor are held as written. Thmax is limited first and then raised to Thmin. -/
def limitProfile (p : Profile) : Profile :=
  let thMin := limitNat 0 8388607 p.hissMin
  let thMax := limitNat 0 8388607 p.hissMax
  { p with
    perfShift := limitOrZero 4 16 p.perfShift
    linePeriod := limitOrZero 2 4096 p.linePeriod
    lineShift := limitNat 4 16 p.lineShift
    spliceHumReset := limitNat 0 2 p.spliceHumReset
    clickFactor := limitNat 8 255 p.clickFactor
    noiseMin := limitNat 1 65535 p.noiseMin
    guard := limitNat 0 3 p.guard
    repairMax := limitNat 4 96 p.repairMax
    spliceWidth := limitNat 0 16 p.spliceWidth
    splitShift := limitNat 1 6 p.splitShift
    envShift := limitNat 2 10 p.envShift
    refMult := limitNat 4 64 p.refMult
    gainFloor := limitNat 0 256 p.gainFloor
    hissInitial := limitNat 0 8388607 p.hissInitial
    hissMin := thMin
    hissMax := if thMax < thMin then thMin else thMax }

/-- Some replacement changed a written value: the profile is marked as clamped (R40, R61, R90). -/
def profileClamped (p : Profile) : Bool :=
  limitProfile p != p

def hissParams (p : Profile) : HissParams :=
  { splitShift := p.splitShift, envShift := p.envShift, initial := p.hissInitial, refMult := p.refMult
    thMin := p.hissMin, thMax := p.hissMax, gainFloor := p.gainFloor }

/-! ## Records the part writes (R193) -/

def completionCode : Completion → Nat
  | .ok => 0
  | .skipped => 1
  | .descFault => 2
  | .descInvalid => 3
  | .sequence => 4
  | .marksFault => 5
  | .profileFault => 6
  | .outputFault => 7
  | .stateFault => 8

def openCodeNat : Option OpenCode → Nat
  | none => 0
  | some .entryInvalid => 1
  | some .profileFault => 2

def stateCode : StreamState → Nat
  | .closed => 0
  | .opening => 1
  | .running => 2
  | .awaitLink => 3
  | .stopping => 4
  | .aborting => 5
  | .halting => 6
  | .stopped => 7
  | .halted => 8

/-- The window kinds of R86. -/
inductive Kind where
  | click
  | void
  | splice
  | prot
  | long
  deriving DecidableEq, Repr

def kindCode : Kind → Nat
  | .click => 1
  | .void => 2
  | .splice => 3
  | .prot => 4
  | .long => 5

def bitIf (b : Bool) (n : Nat) : Nat :=
  if b then n else 0

/-- A 16-byte repair-log entry (R85, 10.8). -/
def logEntryBytes (start length : Nat) (kind : Kind) (c : Content) : List Byte :=
  leBytes 2 start ++ leBytes 2 length ++ leBytes 1 (kindCode kind) ++
  leBytes 1 (bitIf c.scanner 1 + bitIf c.fetch 2 + bitIf c.unresolved 4) ++
  leBytes 2 c.voids ++ leBytes 4 (min c.peak Config.peakMax) ++ leBytes 4 0

/-- A 128-byte span report (R162, 10.8). `mask` and `thEnd` stand in for what the tallies have not recorded (R164). -/
def reportBytes (code : Completion) (echo : Seq) (t : Tally) (mask : LaneMask) (thEnd : Nat) : List Byte :=
  leBytes 4 (completionCode code) ++ leBytes 4 echo.toNat ++ leBytes 4 t.samplesOutput ++
  leBytes 4 t.logWritten ++ leBytes 4 t.logLost ++
  leBytes 4 t.clickWindows ++ leBytes 4 t.voidWindows ++ leBytes 4 t.spliceWindows ++
  leBytes 4 t.protectedWindows ++ leBytes 4 t.longWindows ++
  leBytes 4 t.repaired ++ leBytes 4 t.voidRepaired ++ leBytes 4 t.voidPassed ++
  leBytes 4 t.disputed ++ leBytes 4 t.unresolved ++ leBytes 4 t.fetchFailed ++ leBytes 4 t.fetchVoid ++
  leBytes 4 t.marksIgnored ++ leBytes 4 t.phaseOverruns ++ leBytes 4 t.humClamps ++ leBytes 4 t.saturations ++
  leBytes 4 t.retirements ++ leBytes 4 t.reinstatements ++
  leBytes 4 ((t.mask.getD mask).toNat + bitIf t.clamped 256) ++ leBytes 4 (t.thEnd.getD thEnd) ++
  leBytes 4 (crcFinish t.votedCrc).toNat ++ leBytes 4 (crcFinish t.outputCrc).toNat ++ leBytes 20 0

/-- The address that the chain position reports (R189): 0 when none. -/
def positionAddr : ChainPosition → Nat
  | .none => 0
  | .anchor a => a
  | .span a => a

/-- A 64-byte progress record (R189, 10.8). -/
def progressBytes (k : StreamId) (x : Stream) (mask : LaneMask) : List Byte :=
  leBytes 1 (stateCode x.state) ++ leBytes 1 mask.toNat ++ leBytes 2 x.tag.toNat ++
  leBytes 1 (match x.failing with | none => 0 | some f => completionCode f.code) ++
  leBytes 1 (openCodeNat x.openCode) ++ leBytes 1 k.val ++ leBytes 1 0 ++
  leBytes 8 (positionAddr x.position) ++ leBytes 8 x.counters.lastAddr ++ leBytes 4 x.counters.lastSeq.toNat ++
  leBytes 4 x.counters.released.toNat ++ leBytes 8 x.counters.samples.toNat ++
  leBytes 8 (match x.failing with | none => 0 | some f => f.addr) ++ leBytes 16 0

/-! ## Report tallies (R156) -/

/-- Tallies with every count 0 and both signatures at their start value (R156). -/
def freshTally (start count capacity : Nat) : Tally :=
  { start := start, count := count, capacity := capacity, samplesOutput := 0, logWritten := 0, logLost := 0
    clickWindows := 0, voidWindows := 0, spliceWindows := 0, protectedWindows := 0, longWindows := 0
    repaired := 0, voidRepaired := 0, voidPassed := 0, disputed := 0, unresolved := 0, fetchFailed := 0, fetchVoid := 0
    marksIgnored := 0, phaseOverruns := 0, humClamps := 0, saturations := 0, retirements := 0, reinstatements := 0
    mask := none, thEnd := none, clamped := false, votedCrc := crcStart, outputCrc := crcStart }

/-- Change the tallies of the span that begins at `span`. -/
def onTally (span : Nat) (f : Tally → Tally) (ts : List Tally) : List Tally :=
  ts.map fun t => if t.start = span then f t else t

end Sys2Proof.Machine
end

