-- ==== Sys2Proof/Machine/Lanes.lean ====
section
/-! DEFINITION. The Lane Combiner (chapter 1): containers, the vote, outlier counting, retirement and reinstatement. -/

namespace Sys2Proof.Machine

/-! ## Containers (1.1, 1.2) -/

/-- The bytes of a container (R2). -/
def containerSize : Format → Nat
  | .l16 => 2
  | .l24 => 4

/-- A decoded L16 value as an internal lane sample (R3, R5). -/
def sampleOfL16 (bits : Nat) : Sample :=
  let x := signedValue 16 bits
  if x = -32768 then .void .scanner else .value (256 * x)

/-- A decoded L24 value as an internal lane sample (R4, R5). -/
def sampleOfL24 (bits : Nat) : Sample :=
  let y := signedValue 24 bits
  if y = -8388608 then .void .scanner else .value y

/-- An L16 container, byte 0 first (R3). -/
def decodeL16 (order : ByteOrder) (b0 b1 : Byte) : Sample :=
  match order with
  | .little => sampleOfL16 (leNat [b0, b1])
  | .big => sampleOfL16 (leNat [b1, b0])

/-- An L24 container, byte 0 first; the fourth byte is ignored (R4). -/
def decodeL24 (order : ByteOrder) (b0 b1 b2 b3 : Byte) : Sample :=
  match order with
  | .little => sampleOfL24 (leNat [b0, b1, b2])
  | .big => sampleOfL24 (leNat [b3, b2, b1])

def decodeAllL16 (order : ByteOrder) : List Byte → List Sample
  | b0 :: b1 :: rest => decodeL16 order b0 b1 :: decodeAllL16 order rest
  | _ => []

def decodeAllL24 (order : ByteOrder) : List Byte → List Sample
  | b0 :: b1 :: b2 :: b3 :: rest => decodeL24 order b0 b1 b2 b3 :: decodeAllL24 order rest
  | _ => []

/-- The containers of one lane's block (R2). -/
def decodeContainers (cfg : StreamConfig) (bytes : List Byte) : List Sample :=
  match cfg.laneFormat with
  | .l16 => decodeAllL16 cfg.laneOrder bytes
  | .l24 => decodeAllL24 cfg.laneOrder bytes

/-- One lane's samples of a block of `n`: a failed read makes the whole block voids of origin FETCH (R6). -/
def laneSamples (cfg : StreamConfig) (n : Nat) : ReadResult → List Sample
  | none => List.replicate n (.void .fetch)
  | some bytes => decodeContainers cfg bytes

def zipThree : List Sample → List Sample → List Sample → List LaneRow
  | a :: as, b :: bs, c :: cs => .three a b c :: zipThree as bs cs
  | _, _, _ => []

/-- The lane samples of a block, position by position (R7). -/
def blockRows (cfg : StreamConfig) (n : Nat) (lanes : List ReadResult) : List LaneRow :=
  match cfg.laneCount, lanes with
  | .one, [a] => (laneSamples cfg n a).map .one
  | .three, [a, b, c] => zipThree (laneSamples cfg n a) (laneSamples cfg n b) (laneSamples cfg n c)
  | _, _ => []

/-! ## The vote (1.3) -/

/-- A voted sample, its flags, and the lane whose window count rises (R10 to R15). -/
structure Vote where
  v : Sample
  disputed : Bool
  unresolved : Bool
  outlier : Option Lane
  deriving DecidableEq, Repr

def plainVote (v : Sample) : Vote :=
  { v := v, disputed := false, unresolved := false, outlier := none }

/-- The lane that supplied `x` (R11). -/
def laneOfValue (a b x : Int) : Lane :=
  if a = x then 0 else if b = x then 1 else 2

/-- The median vote (R10, R11). -/
def medianVote (d : Nat) (a b c : Int) : Vote :=
  let lo := min a (min b c)
  let hi := max a (max b c)
  let mid := max (min a b) (min (max a b) c)
  if hi - lo > d then
    { v := .value mid, disputed := true, unresolved := false
      outlier := if hi - mid > mid - lo then some (laneOfValue a b hi)
        else if mid - lo > hi - mid then some (laneOfValue a b lo)
        else none }
  else plainVote (.value mid)

/-- The prediction of R13: 0 when the history holds fewer than two values. -/
def prediction (history : List Int) : Int :=
  match history with
  | v1 :: v2 :: _ => 2 * v1 - v2
  | _ => 0

/-- The two-lane vote (R12, R13): `x` of the lower-numbered lane `i`, `y` of lane `j`. -/
def twoLaneVote (d : Nat) (history : List Int) (i j : Lane) (x y : Int) : Vote :=
  if (x - y).natAbs ≤ d then plainVote (.value ((x + y + 1) / 2))
  else
    let p := prediction history
    if (x - p).natAbs ≤ (y - p).natAbs then { v := .value x, disputed := true, unresolved := true, outlier := some j }
    else { v := .value y, disputed := true, unresolved := true, outlier := some i }

/-- A lane's value when the lane is usable at the position (R8). -/
def usable (ls : LaneState) (l : Lane) (x : Sample) : Option Int :=
  if ls.retired = some l then none
  else match x with
    | .value v => some v
    | .void _ => none

/-- An active lane's sample is a void of origin FETCH (R15). -/
def activeFetchVoid (ls : LaneState) (l : Lane) (x : Sample) : Bool :=
  decide (ls.retired ≠ some l) && x == .void .fetch

/-- The origin of a voided sample (R15). -/
def voidOrigin (ls : LaneState) (a b c : Sample) : VoidOrigin :=
  if activeFetchVoid ls 0 a || activeFetchVoid ls 1 b || activeFetchVoid ls 2 c then .fetch else .scanner

/-- The vote that applies at a position (R8, R9). -/
def voteRow (d : Nat) (ls : LaneState) : LaneRow → Vote
  | .one a => plainVote a
  | .three a b c =>
      match usable ls 0 a, usable ls 1 b, usable ls 2 c with
      | some x, some y, some z => medianVote d x y z
      | some x, some y, none => twoLaneVote d ls.history 0 1 x y
      | some x, none, some z => twoLaneVote d ls.history 0 2 x z
      | none, some y, some z => twoLaneVote d ls.history 1 2 y z
      | _, _, _ => plainVote (.void (voidOrigin ls a b c))

/-- The prediction history after a voted sample (R14). -/
def shiftHistory (v : Sample) (history : List Int) : List Int :=
  match v with
  | .value x => x :: history.take 1
  | .void _ => history

/-! ## Outlier counting (1.4) -/

inductive LaneChange where
  | none
  | retirement
  | reinstatement
  deriving DecidableEq, Repr

def zeroCounts : Vector Nat 3 :=
  Vector.replicate 3 0

/-- Steps 3 and 4 of R17 with no lane changed: the counter advances, and a full window starts a new one. -/
def advanceWindow (ls : LaneState) : LaneState :=
  if ls.counter + 1 = Config.outlierWindow then { ls with counts := zeroCounts, counter := 0 }
  else { ls with counter := ls.counter + 1 }

/-- The counting of one voted sample of a three-lane stream (R17 to R19). -/
def countOutlier (limit : Nat) (outlier : Option Lane) (ls : LaneState) : LaneState × LaneChange :=
  match outlier with
  | none => (advanceWindow ls, .none)
  | some l =>
      let c := ls.counts[l] + 1
      let ls1 := { ls with counts := ls.counts.set l c }
      if limit > 0 ∧ limit + 1 ≤ c then
        match ls.retired with
        | none => ({ ls1 with retired := some l, counts := zeroCounts, counter := 0 }, .retirement)
        | some _ => ({ ls1 with retired := none, counts := zeroCounts, counter := 0 }, .reinstatement)
      else (advanceWindow ls1, .none)

/-- One position through the Lane Combiner: the vote, the history and the counting (R9, R14, R17). -/
def combine (d limit : Nat) (row : LaneRow) (ls : LaneState) : Vote × LaneState × LaneChange :=
  let vote := voteRow d ls row
  let ls1 := { ls with history := shiftHistory vote.v ls.history }
  match row with
  | .one _ => (vote, ls1, .none)
  | .three .. =>
      let (ls2, change) := countOutlier limit vote.outlier ls1
      (vote, ls2, change)

/-- The live set of active lanes (R20). -/
def activeMask (cfg : StreamConfig) (ls : LaneState) : LaneMask :=
  match cfg.laneCount with
  | .one => 1#3
  | .three =>
      match ls.retired with
      | none => 7#3
      | some l => 7#3 &&& ~~~(1#3 <<< l.val)

/-! ## Fresh starts (R22) -/

def freshLanes : LaneState :=
  { retired := none, counts := zeroCounts, counter := 0, history := [] }

/-- A span flagged FRESH_LANES keeps the prediction history (R22). -/
def applyFreshLanes (ls : LaneState) : LaneState :=
  { ls with retired := none, counts := zeroCounts, counter := 0 }

/-- The three bytes with which a voted sample enters the voted signature (R109). -/
def votedBytes (v : Sample) : List Byte :=
  match v with
  | .value x => intBytes 3 x
  | .void _ => intBytes 3 Config.voidMark

end Sys2Proof.Machine
end

