-- ==== Sys2Proof/Machine/Hiss.lean ====
section
/-! DEFINITION. The Hiss Expander and the Output Formatter (chapter 5). -/

namespace Sys2Proof.Machine

/-! ## Fresh state (R93) -/

def freshHiss (p : HissParams) : HissState :=
  { low := 0, env := 0, th := 256 * p.initial, prevSpan := none, inUse := p, pendingParams := none }

/-! ## One sample (5.4, 5.5) -/

/-- Step 1 of R94: the switch of parameters when the sample's span differs from the previous span (R91). -/
def switchParams (span : Nat) (h : HissState) : HissState :=
  if h.prevSpan = some span then h
  else { h with prevSpan := some span, inUse := h.pendingParams.getD h.inUse, pendingParams := none }

/-- The learned threshold (R100). -/
def learnedThreshold (p : HissParams) (env : Int) : Int :=
  clampTo (256 * p.thMin) (256 * p.thMax) (env * p.refMult / 4)

/-- The tracker's move towards 256 * w (R95). -/
def moveLow (a : Nat) (w low : Int) : Int :=
  low + (256 * w - low + 2 ^ (a - 1)) / 2 ^ a

/-- The envelope's move towards 256 * |high| (R96). -/
def moveEnv (r : Nat) (high env : Int) : Int :=
  env + (256 * (high.natAbs : Int) - env + 2 ^ (r - 1)) / 2 ^ r

/-- The hiss gain (R97). -/
def hissGain (gmin : Nat) (env th : Int) : Int :=
  if th = 0 then 256 else if th ≤ env then 256 else max (gmin : Int) (256 * env / th)

/-- The expanded value before its clamp (R98). -/
def expand (low high gain : Int) : Int :=
  low + (high * gain + 128) / 256

/-- One sample through the Hiss Expander (R94): the expanded sample and whether its clamp changed it. -/
def hissSample (span : Nat) (refEnd : Bool) (w : Sample) (h0 : HissState) : Sample × Bool × HissState :=
  let h1 := switchParams span h0
  let h2 := if refEnd then { h1 with th := learnedThreshold h1.inUse h1.env } else h1
  match w with
  | .void o => (.void o, false, h2)
  | .value x =>
      let lq := moveLow h2.inUse.splitShift x h2.low
      let low := (lq + 128) / 256
      let high := x - low
      let env := moveEnv h2.inUse.envShift high h2.env
      let o := expand low high (hissGain h2.inUse.gainFloor env h2.th)
      (.value (clampSample o), decide (clampSample o ≠ o), { h2 with low := lq, env := env })

/-! ## Output containers (5.6) -/

/-- The output value of an expanded value and whether its clamp changed it (R103). -/
def outputValue (f : Format) (o : Int) : Int × Bool :=
  match f with
  | .l24 => (o, false)
  | .l16 =>
      let r := (o + 128) / 256
      (clampTo (-32767) 32767 r, decide (clampTo (-32767) 32767 r ≠ r))

/-- The void code of a format (R104). -/
def voidCode : Format → Int
  | .l16 => -32768
  | .l24 => -8388608

/-- The container of an output value (R105): the value as a 16-bit or 32-bit two's complement word. -/
def containerBytes (f : Format) (order : ByteOrder) (x : Int) : List Byte :=
  inOrder order (intBytes (containerSize f) x)

/-- One expanded sample through the Output Formatter: its container and whether a clamp of R103 changed it. -/
def formatSample (cfg : StreamConfig) (o : Sample) : List Byte × Bool :=
  match o with
  | .void _ => (containerBytes cfg.outputFormat cfg.outputOrder (voidCode cfg.outputFormat), false)
  | .value x =>
      let (y, clamped) := outputValue cfg.outputFormat x
      (containerBytes cfg.outputFormat cfg.outputOrder y, clamped)

end Sys2Proof.Machine
end

