-- ==== Sys2Proof/Machine/Click.lean ====
section
/-! DEFINITION. The Click Repairer (chapter 4), and what follows each released sample: the Hiss Expander, the Output
Formatter and the span's completion. -/

namespace Sys2Proof.Machine

/-! ## Residual, detection and noise (4.3, 4.4) -/

/-- The residual of a sample, when it is examined (R63). -/
def residual (uHist : List Sample) (u : Sample) : Option Int :=
  match u, uHist with
  | .value x, .value y :: .value z :: _ => some (x - 2 * y + z)
  | _, _ => none

/-- The detection test (R64). -/
def detects (k floorF : Nat) (noise : Int) (absE : Nat) : Bool :=
  decide (128 * (absE : Int) > k * noise) && decide (absE > floorF)

/-- The noise range of a profile's Nmin (R62, R65). -/
def clampNoise (nmin : Nat) (noise : Int) : Int :=
  clampTo (16 * nmin) (16 * Config.sampleMax) noise

/-- The noise update of a quiet sample (R65). -/
def moveNoise (nmin : Nat) (absE : Nat) (noise : Int) : Int :=
  clampNoise nmin (noise + (16 * (absE : Int) - noise + 32) / 64)

/-- A sample's classification (R64, R66) and the noise level after it (R65). -/
structure Classified where
  absE : Option Nat
  flagged : Bool
  noise : Int
  deriving DecidableEq, Repr

def isVoid : Sample → Bool
  | .value _ => false
  | .void _ => true

/-- Steps 1 to 4 of R67. -/
def classify (p : Profile) (c : ClickState) (u : Sample) (unresolved bump : Bool) : Classified :=
  match residual c.uHist u with
  | none => { absE := none, flagged := isVoid u || unresolved || bump, noise := c.noise }
  | some e =>
      let a := e.natAbs
      if detects p.clickFactor p.clickFloor c.noise a then { absE := some a, flagged := true, noise := c.noise }
      else { absE := some a, flagged := unresolved || bump, noise := moveNoise p.noiseMin a c.noise }

def freshClick (nmin : Nat) : ClickState :=
  { uHist := [], noise := 16 * nmin, held := [], window := none, lastOut := none, prevEnd := none }

/-! ## Window content and kind (R72, R86) -/

def emptyContent : Content :=
  { prot := false, splice := false, voids := 0, scanner := false, fetch := false, unresolved := false, peak := 0 }

/-- One sample joins a window's content (R72). -/
def addContent (c : Content) (h : Held) : Content :=
  { prot := c.prot || h.prot
    splice := c.splice || h.bump
    voids := if isVoid h.u then c.voids + 1 else c.voids
    scanner := c.scanner || h.u == .void .scanner
    fetch := c.fetch || h.u == .void .fetch
    unresolved := c.unresolved || h.unresolved
    peak := max c.peak (h.absE.getD 0) }

/-- The kind of a closed window (R86). -/
def windowKind (long : Bool) (c : Content) : Kind :=
  if c.prot then .prot
  else if long then .long
  else if c.splice then .splice
  else if c.voids ≠ 0 then .void
  else .click

/-- The count of a window's kind (R87). -/
def countWindow (kind : Kind) (t : Tally) : Tally :=
  match kind with
  | .click => { t with clickWindows := t.clickWindows + 1 }
  | .void => { t with voidWindows := t.voidWindows + 1 }
  | .splice => { t with spliceWindows := t.spliceWindows + 1 }
  | .prot => { t with protectedWindows := t.protectedWindows + 1 }
  | .long => { t with longWindows := t.longWindows + 1 }

/-! ## What the data path hands on -/

/-- What a block hands to the Write-back Unit and the Stream Controller. A span is named by the absolute position of its
first sample. -/
inductive Emit where
  | container (span index : Nat) (bytes : List Byte)
  | logEntry (span slot : Nat) (bytes : List Byte)
  | complete (span : Nat) (tally : Tally)
  deriving DecidableEq, Repr

/-- A block in progress: the signal context, the first positions of the begun spans that are not finished, what it has handed
on (oldest first) and the lane changes it has made. A span in the context that is not among `live` has finished in an earlier
run, and its samples are replayed (R138). -/
structure Run where
  ctx : SignalContext
  live : List Nat
  emits : List Emit
  laneChanges : Nat
  deriving DecidableEq, Repr

/-- Change the tallies of one span. -/
def tallyRun (span : Nat) (f : Tally → Tally) (r : Run) : Run :=
  { r with ctx := { r.ctx with tallies := onTally span f r.ctx.tallies } }

def emitRun (e : Emit) (r : Run) : Run :=
  { r with emits := r.emits ++ [e] }

def clickRun (f : ClickState → ClickState) (r : Run) : Run :=
  { r with ctx := { r.ctx with click := f r.ctx.click } }

/-! ## Release (R79), with the stages behind it -/

/-- The span's tallies take one output sample (R106, R110). -/
def countOutput (saturated : Bool) (bytes : List Byte) (t : Tally) : Tally :=
  { t with
    samplesOutput := t.samplesOutput + 1
    saturations := if saturated then t.saturations + 1 else t.saturations
    outputCrc := crcBytes t.outputCrc bytes }

/-- The span's last sample has been released: Th at end is recorded (R101). -/
def recordEnd (pos : Nat) (th : Int) (t : Tally) : Tally :=
  if t.start + t.count = pos + 1 then { t with thEnd := some (th / 256).toNat } else t

/-- A window that began in the span is open. -/
def windowIn (span : Nat) (c : ClickState) : Bool :=
  match c.window with
  | none => false
  | some w => decide (w.span = span)

/-- A span is complete when its last sample has been released and every window whose start lies in it has closed, its entry
handed on and its counts final (R81). R78 may release the last sample while a LONG window that began in the span is open; then
the span is complete at that window's closure (log entry 38). The tallies of a replayed span go unwritten and are dropped when
its last sample has been released (R138, R156). -/
def isComplete (r : Run) (t : Tally) : Bool :=
  t.thEnd.isSome && !(windowIn t.start r.ctx.click && r.live.contains t.start)

/-- The oldest span leaves the data path: its tallies leave the signal context and its completion is reported (R81, R107). -/
def leaveOldest (t : Tally) (r : Run) : Run :=
  emitRun (.complete t.start t) { r with ctx := { r.ctx with tallies := r.ctx.tallies.tail } }

/-- The spans that have become complete leave the data path, oldest first: spans finish in the order in which they began
(R136). -/
def completeSpans : List Tally → Run → Run
  | [], r => r
  | t :: ts, r => if isComplete r t then completeSpans ts (leaveOldest t r) else r

def completeRun (r : Run) : Run :=
  completeSpans r.ctx.tallies r

/-- A released sample through the Hiss Expander and the Output Formatter (R89, R94, R105). -/
def expandAndFormat (h : Held) (w : Sample) (r : Run) : Run :=
  let (o, sat1, hiss) := hissSample h.span h.refEnd w r.ctx.hiss
  let (bytes, sat2) := formatSample r.ctx.config o
  completeRun
    (tallyRun h.span (fun t => recordEnd h.pos hiss.th (countOutput (sat1 || sat2) bytes t))
      (emitRun (.container h.span (h.pos - h.span) bytes) { r with ctx := { r.ctx with hiss := hiss } }))

/-- The release of one sample with its output (R79). -/
def releaseSample (h : Held) (w : Sample) (r : Run) : Run :=
  expandAndFormat h w (clickRun (fun c => { c with lastOut := some w }) r)

/-- A sample released unrepaired, w = u or a void (R76, R77). -/
def passSample (h : Held) (r : Run) : Run :=
  releaseSample h h.u
    (if isVoid h.u then tallyRun h.span (fun t => { t with voidPassed := t.voidPassed + 1 }) r else r)

/-- A sample released with a repaired value (R75, R77). -/
def repairSample (h : Held) (w : Int) (r : Run) : Run :=
  releaseSample h (.value w)
    (tallyRun h.span (fun t => { t with
      repaired := t.repaired + 1
      voidRepaired := if isVoid h.u then t.voidRepaired + 1 else t.voidRepaired }) r)

/-- Samples released unrepaired, in order. -/
def passAll (hs : List Held) (r : Run) : Run :=
  hs.foldl (fun t h => passSample h t) r

/-- Held samples at or below a bound are released unrepaired, oldest first (R78). -/
def releaseWhile (within : Nat → Bool) (r : Run) : Run :=
  let held := r.ctx.click.held
  passAll (held.takeWhile fun h => within h.pos)
    (clickRun (fun c => { c with held := held.dropWhile fun h => within h.pos }) r)

/-! ## Repair (4.6) -/

/-- The value of an anchor, when it is recorded and not void (R74). -/
def anchorValue : Option Sample → Option Int
  | some (.value x) => some x
  | _ => none

/-- The i-th repaired value of a window of length L between anchors a and b (R75). -/
def lineValue (a b : Int) (len i : Nat) : Int :=
  a + (2 * (b - a) * i + (len + 1)) / (2 * (len + 1))

/-- The repaired value at i: a missing left anchor takes the right one, a missing right anchor (a flush) the left one, and
with neither every sample is 0 (R74, R82, R84). -/
def repairValue (left right : Option Int) (len i : Nat) : Int :=
  match left, right with
  | some a, some b => lineValue a b len i
  | some a, none => lineValue a a len i
  | none, some b => lineValue b b len i
  | none, none => 0

/-- The samples of a repaired window, in order; `i` counts from the window's start (R75). -/
def repairAll (left right : Option Int) (len : Nat) : Nat → List Held → Run → Run
  | _, [], r => r
  | i, h :: hs, r => repairAll left right len (i + 1) hs (repairSample h (repairValue left right len i) r)

/-! ## Closing a window (R71, R82) -/

/-- The log entry of a closed window: its count by kind, and a slot, or a lost entry (R85, R87, R157, R158). A
replayed span whose last sample has been released has no tallies any more, and nothing of it is written (R138, R156). -/
def handEntry (span start length : Nat) (kind : Kind) (c : Content) (r : Run) : Run :=
  let bytes := logEntryBytes (start - span) length kind c
  let r1 := tallyRun span (countWindow kind) r
  match r1.ctx.tallies.find? (fun t => decide (t.start = span)) with
  | none => r1
  | some t =>
      if t.logWritten < t.capacity then
        emitRun (.logEntry span t.logWritten bytes)
          (tallyRun span (fun t => { t with logWritten := t.logWritten + 1 }) r1)
      else tallyRun span (fun t => { t with logLost := t.logLost + 1 }) r1

/-- A window closes with its end at `e` (R71): its content is completed, its entry handed on, its samples released; the
right anchor is u[e + 1], or absent at a flush (R82). A span that waited for the window alone is complete with the entry. -/
def closeWindow (w : Window) (e : Nat) (flush : Bool) (r : Run) : Run :=
  let content := (w.tail.filter fun h => decide (h.pos ≤ e)).foldl addContent w.content
  let kind := windowKind w.long content
  let len := e + 1 - w.start
  let r1 := handEntry w.span w.start len kind content r
  let held := r1.ctx.click.held
  let inside := held.takeWhile fun h => decide (h.pos ≤ e)
  let rest := held.dropWhile fun h => decide (h.pos ≤ e)
  let r2 := clickRun (fun c => { c with window := none, prevEnd := some e, held := rest }) r1
  let r3 := completeRun r2
  if kind = .prot ∨ kind = .long then passAll inside r3
  else
    let right := if flush then none else anchorValue ((rest.head?).map fun h => h.u)
    repairAll (anchorValue w.left) right len 1 inside r3

/-! ## Opening and growing (R68 to R70) -/

/-- The provisional length exceeds Lmax (R70). -/
def tooLong (start nlast guard longest : Nat) : Bool :=
  decide (longest < nlast + guard + 1 - start)

/-- The start of a window that a sample opens (R68). -/
def windowStart (guard : Nat) (c : ClickState) (n : Nat) : Nat :=
  max (n - guard) (max (match c.prevEnd with | none => 0 | some e => e + 1)
    (match c.held with | [] => n | h :: _ => h.pos))

/-- A flagged sample opens a window (R68). It is the last of the held samples. -/
def openWindow (p : Profile) (h : Held) (r : Run) : Run :=
  let s := windowStart p.guard r.ctx.click h.pos
  let r1 := releaseWhile (fun q => decide (q < s)) r
  let c := r1.ctx.click
  let spanOfStart := match c.held with
    | [] => h.span
    | x :: _ => x.span
  let w : Window :=
    { start := s, span := spanOfStart, nlast := h.pos, quiet := 0, long := tooLong s h.pos p.guard p.repairMax
      guard := p.guard, longest := p.repairMax, left := c.lastOut, content := c.held.foldl addContent emptyContent
      tail := [] }
  clickRun (fun k => { k with window := some w }) r1

/-- A flagged sample grows the open window (R69, R70). -/
def growWindow (h : Held) (w : Window) : Window :=
  { w with
    nlast := h.pos
    quiet := 0
    long := w.long || tooLong w.start h.pos w.guard w.longest
    content := addContent (w.tail.foldl addContent w.content) h
    tail := [] }

/-- A non-flagged sample joins the quiet run (R69). -/
def quietWindow (h : Held) (w : Window) : Window :=
  { w with quiet := w.quiet + 1, tail := w.tail ++ [h] }

/-- A sample that arrives with no window open (R68). -/
def noWindow (p : Profile) (h : Held) (r : Run) : Run :=
  if h.flagged then openWindow p h r else r

/-- Step 7 of R67. -/
def updateWindow (p : Profile) (h : Held) (r : Run) : Run :=
  match r.ctx.click.window with
  | none => noWindow p h r
  | some w =>
      if h.pos = w.start + Config.windowLimit then
        noWindow p h (closeWindow w (w.start + Config.windowLimit - 1) false r)
      else if h.flagged then clickRun (fun c => { c with window := some (growWindow h w) }) r
      else
        let w1 := quietWindow h w
        if w1.quiet = 4 then closeWindow w1 (w1.nlast + w1.guard) false r
        else clickRun (fun c => { c with window := some w1 }) r

/-- Step 8 of R67: the releases of R78 after the sample at `c`. -/
def releaseAfter (guard c : Nat) (r : Run) : Run :=
  match r.ctx.click.window with
  | none => releaseWhile (fun q => decide (q + guard ≤ c)) r
  | some w => if w.long then releaseWhile (fun q => decide (q + guard ≤ c)) r else r

/-- A flush at the last sample of a span (R82, R83). -/
def flushClick (lastPos : Nat) (r : Run) : Run :=
  let r1 := match r.ctx.click.window with
    | none => r
    | some w => closeWindow w (min (w.nlast + w.guard) lastPos) true r
  releaseWhile (fun _ => true) r1

/-! ## One sample (R67) -/

/-- Steps 5 and 6 of R67: the u history shifts and the sample joins the held-sample store, with the noise level of its
classification. -/
def holdSample (h : Held) (noise : Int) (c : ClickState) : ClickState :=
  { c with noise := noise, uHist := h.u :: c.uHist.take 1, held := c.held ++ [h] }

end Sys2Proof.Machine
end

