-- ==== Sys2Proof/Machine/Hum.lean ====
section
/-! DEFINITION. The Hum Canceller (chapter 3): templates, subtraction and learning. -/

namespace Sys2Proof.Machine

/-! ## Templates (3.1) -/

/-- A template with every bin 0. -/
def zeroTemplate : Template :=
  { cells := [] }

def binGet : List (Nat × Int) → Nat → Int
  | [], _ => 0
  | (i, x) :: rest, b => if i = b then x else binGet rest b

/-- Store a value in a bin, keeping bins in rising order and listing none that holds 0. -/
def binPut (b : Nat) (v : Int) : List (Nat × Int) → List (Nat × Int)
  | [] => if v = 0 then [] else [(b, v)]
  | (i, x) :: rest =>
      if b < i then (if v = 0 then (i, x) :: rest else (b, v) :: (i, x) :: rest)
      else if i = b then (if v = 0 then rest else (b, v) :: rest)
      else (i, x) :: binPut b v rest

/-- The value of a template's bin. -/
def bin (t : Template) (b : Nat) : Int :=
  binGet t.cells b

/-- A template with one bin changed. -/
def setBin (b : Nat) (v : Int) (t : Template) : Template :=
  { cells := binPut b v t.cells }

/-- The canonical form of a template: bins in rising order, each listed value nonzero and within the bin's bounds
(R39, R52). -/
def templateCanonical (t : Template) : Bool :=
  decide (t.cells.Pairwise fun a b => a.1 < b.1) &&
    t.cells.all fun c => decide (c.2 ≠ 0) && decide (-Config.binMax ≤ c.2) && decide (c.2 ≤ Config.binMax)

/-! ## Zeroing (3.6) -/

def freshHum : HumState :=
  { perf := zeroTemplate, line := zeroTemplate, counter := 0 }

def zeroLine (h : HumState) : HumState :=
  { h with line := zeroTemplate, counter := 0 }

/-- A splice reset request (R55). -/
def spliceReset (setting : Nat) (h : HumState) : HumState :=
  if setting = 1 then { h with perf := zeroTemplate }
  else if setting = 2 then freshHum
  else h

/-! ## Subtraction (3.4) -/

/-- The hum estimate h (R46). -/
def humEstimate (kp period : Nat) (perfBin : Option Nat) (h : HumState) : Int :=
  let perfTerm := match perfBin with
    | none => 0
    | some b => if kp = 0 then 0 else bin h.perf b
  let lineTerm := if period = 0 then 0 else bin h.line h.counter
  (perfTerm + lineTerm + 128) / 256

/-- The hum-cancelled sample and whether the clamp changed it (R47, R48). -/
def cancelHum (kp period : Nat) (perfBin : Option Nat) (h : HumState) (v : Sample) : Sample × Bool :=
  match v with
  | .void o => (.void o, false)
  | .value x =>
      let d := x - humEstimate kp period perfBin h
      (.value (clampSample d), decide (clampSample d ≠ d))

/-! ## Learning (3.5) -/

/-- The rounded delta of an update at rate `k` (R51). -/
def learnDelta (k : Nat) (u : Int) : Int :=
  if k ≤ 8 then u * 2 ^ (8 - k) else (u + 2 ^ (k - 9)) / 2 ^ (k - 8)

/-- One bin's update (R51, R52). -/
def learnBin (k b : Nat) (u : Int) (t : Template) : Template :=
  setBin b (clampTo (-Config.binMax) Config.binMax (bin t b + learnDelta k u)) t

/-- The updates of an eligible sample (R50). -/
def learn (kp kl period : Nat) (perfBin : Option Nat) (u : Int) (h : HumState) : HumState :=
  { h with
    perf := match perfBin with
      | none => h.perf
      | some b => if kp = 0 then h.perf else learnBin kp b u h.perf
    line := if period = 0 then h.line else learnBin kl h.counter u h.line }

/-- The line sample counter's advance (R43). -/
def advanceLine (period : Nat) (h : HumState) : HumState :=
  if period = 0 then { h with counter := 0 }
  else if h.counter + 1 = period then { h with counter := 0 }
  else { h with counter := h.counter + 1 }

end Sys2Proof.Machine
end

