-- ==== Sys2Proof/Machine/Marks.lean ====
section
/-! DEFINITION. Mark tracking (chapter 2): the mark schedule, the mark state, phase, frames and splice bumps. -/

namespace Sys2Proof.Machine

/-! ## The schedule (2.2) -/

/-- The marks of `ms` whose offset is greater than that of the most recent one kept (R25, R26): `prev` is that offset, or
none before the first. -/
def keepRising : Option Nat → List Mark → List Mark
  | _, [] => []
  | none, m :: ms => m :: keepRising (some m.offset) ms
  | some p, m :: ms => if p < m.offset then m :: keepRising (some m.offset) ms else keepRising (some p) ms

/-- In-span entries: offset less than the sample count (R24). -/
def inSpan (count : Nat) (m : Mark) : Bool :=
  decide (m.offset < count)

/-- Look-ahead entries: offset from the sample count to the sample count + 4,095 (R24). -/
def isLookAhead (count : Nat) (m : Mark) : Bool :=
  decide (count ≤ m.offset) && decide (m.offset ≤ count + 4095)

/-- A mark at its absolute position (R24). -/
def atPosition (start : Nat) (m : Mark) : Mark :=
  { m with offset := start + m.offset }

/-- The span's schedule (R25, R26). Each class is judged against its own entries alone, so one pass over the list is two
independent ones. -/
def buildSchedule (start count : Nat) (marks : List Mark) : Schedule :=
  { accepted := (keepRising none (marks.filter (inSpan count))).map (atPosition start)
    lookAhead := (keepRising none (marks.filter (isLookAhead count))).map (atPosition start) }

/-- The span's marks ignored count (R27). -/
def marksIgnored (count : Nat) (marks : List Mark) : Nat :=
  marks.length - (keepRising none (marks.filter (inSpan count))).length -
    (keepRising none (marks.filter (isLookAhead count))).length

/-! ## Tracking one position (2.3 to 2.6) -/

def freshMarks : MarkState :=
  { pk := none, period := none, protect := false, hissRef := false, bumpEnd := none }

/-- The accepted mark that stands at a position (R28). -/
def markAt (sched : Schedule) (n : Nat) : Option Mark :=
  sched.accepted.find? fun m => decide (m.offset = n)

/-- Passing a mark (R28 steps 1 to 3, R33). -/
def passMark (m : Mark) (ms : MarkState) : MarkState :=
  let ms1 := { ms with
    period := match ms.pk with
      | none => ms.period
      | some p => some (m.offset - p)
    pk := some m.offset }
  if m.frameStart then { ms1 with protect := m.protect, hissRef := m.hissRef } else ms1

/-- The reference-frame end attribute of a position (R35): the HISS_REF flag of the frame that its mark closes. -/
def refEndAt (mark : Option Mark) (ms : MarkState) : Bool :=
  match mark with
  | none => false
  | some m => m.frameStart && ms.hissRef

/-- The first mark of the schedule after a position (R30). -/
def nextMark (sched : Schedule) (n : Nat) : Option Nat :=
  match sched.accepted.find? (fun m => decide (n < m.offset)) with
  | some m => some m.offset
  | none => sched.lookAhead.head?.map (fun m => m.offset)

/-- The perforation phase of a position: its bin and whether it is a phase overrun, or none (R30 to R32). -/
def phaseAt (sched : Schedule) (ms : MarkState) (n : Nat) : Option (Nat × Bool) :=
  match ms.pk with
  | none => none
  | some p =>
      match nextMark sched n with
      | some q => some (64 * (n - p) / (q - p), false)
      | none =>
          match ms.period with
          | none => none
          | some l => some (min 63 (64 * (n - p) / l), decide (l ≤ n - p))

/-- A position lies in the splice bump of a mark of the schedule (R37). -/
def inRun (width start n : Nat) (m : Mark) : Bool :=
  m.splice && decide (max (m.offset - width) start ≤ n) && decide (n ≤ m.offset + width)

/-- The bump attribute of a position (R37). -/
def inBump (sched : Schedule) (width start : Nat) (bumpEnd : Option Nat) (n : Nat) : Bool :=
  sched.accepted.any (inRun width start n) ||
    match bumpEnd with
    | none => false
    | some e => decide (n ≤ e)

/-- The pending end lapses once tracking has passed it (R37). -/
def lapseBump (n : Nat) (ms : MarkState) : MarkState :=
  match ms.bumpEnd with
  | none => ms
  | some e => if e ≤ n then { ms with bumpEnd := none } else ms

/-- After the span's last sample (R37): a bump that runs past it sets or raises the pending end. -/
def carryBump (sched : Schedule) (width lastPos : Nat) (ms : MarkState) : MarkState :=
  sched.accepted.foldl (fun t m =>
    if m.splice && decide (lastPos < m.offset + width) then
      { t with bumpEnd := some (max (t.bumpEnd.getD 0) (m.offset + width)) }
    else t) ms

/-- The attributes that mark tracking hands on (R38). -/
structure Attributes where
  bin : Option Nat
  overrun : Bool
  splice : Bool
  prot : Bool
  bump : Bool
  refEnd : Bool
  deriving DecidableEq, Repr

/-- One position through mark tracking (R28): the mark passed, the phase, and the attributes of R38. `isLast` says that
the position is the last of its span. -/
def track (sched : Schedule) (width start lastPos : Nat) (protectAll : Bool) (n : Nat) (ms : MarkState) :
    Attributes × MarkState :=
  let mark := markAt sched n
  let ms1 := match mark with
    | none => ms
    | some m => passMark m ms
  let phase := phaseAt sched ms1 n
  let attrs : Attributes :=
    { bin := phase.map (fun p => p.1)
      overrun := match phase with | none => false | some p => p.2
      splice := match mark with | none => false | some m => m.splice
      prot := ms1.protect || protectAll
      bump := inBump sched width start ms.bumpEnd n
      refEnd := refEndAt mark ms }
  let ms2 := lapseBump n ms1
  (attrs, if n = lastPos then carryBump sched width lastPos ms2 else ms2)

end Sys2Proof.Machine
end

