-- ==== Sys2Proof/Machine/Flags.lean ====
section
/-! DEFINITION. Device status bits, event latches, messages and INTx (R186, R191, R192). -/

namespace Sys2Proof.Machine

/-! ## Event causes (10.7) -/

/-- A cause's bit of EVLATCH (10.1). -/
def causeIndex : Cause → Nat
  | .spanNotify => 0
  | .attention => 1
  | .stopped => 2
  | .laneChange => 3
  | .deviceFault => 4

/-- The causes in the order of EVLATCH. -/
def allCauses : List Cause :=
  [.spanNotify, .attention, .stopped, .laneChange, .deviceFault]

def causeMask (c : Cause) : BitVec 5 :=
  BitVec.ofNat 5 (2 ^ causeIndex c)

/-- A cause's latch. -/
def latched (latch : BitVec 5) (c : Cause) : Bool :=
  latch.getLsbD (causeIndex c)

/-- A cause's entry of EVMAP, 0 to 7 (10.1). -/
def mapEntry (map : BitVec 15) (c : Cause) : Nat :=
  (map >>> (3 * causeIndex c)).toNat % 8

/-- A cause that is latched and mapped to a vector, 0 to 3 (R192). -/
def signalled (latch : BitVec 5) (map : BitVec 15) (c : Cause) : Bool :=
  latched latch c && decide (mapEntry map c < 4)

/-- The level of INTx (R192): asserted while message signalling is not enabled and some latched cause is mapped to 0 to
3. -/
def intxLevel (enabled : Bool) (latch : BitVec 5) (map : BitVec 15) : Bool :=
  !enabled && allCauses.any (signalled latch map)

/-- INTx follows the latches, the map and message signalling (R192). -/
def refreshIntx (s : State) : State :=
  { s with intx := intxLevel s.msgEnabled s.evlatch s.evmap }

/-- The message of a cause on the vector its entry gives, modulo the vectors granted (R192). Whether the PCIe Port can
send it is a free value (log entry 3). -/
def sendMessage (c : Cause) (s : State) : State :=
  { s with messages := s.messages ++
      [{ cause := c, vector := mapEntry s.evmap c % vectorCount s.msgVectors
         sent := Config.portSends s.messages.length }] }

/-- A message is sent only with message signalling enabled and the cause mapped to 0 to 3 (R192). -/
def messageIfMapped (c : Cause) (s : State) : State :=
  if s.msgEnabled && decide (mapEntry s.evmap c < 4) then sendMessage c s else s

/-- A cause signal (R191): a clear latch is set, and a message follows as R192 gives; a set latch stays set and nothing
more happens. -/
def signal (c : Cause) (s : State) : State :=
  if latched s.evlatch c then s
  else refreshIntx (messageIfMapped c { s with evlatch := s.evlatch ||| causeMask c })

/-- `n` signals of one cause, one after another. -/
def signalTimes : Nat → Cause → State → State
  | 0, _, s => s
  | n + 1, c, s => signalTimes n c (signal c s)

/-- A write to EVLATCH (R191): each latch written as 1 is cleared. -/
def clearLatches (value : Word32) (s : State) : State :=
  refreshIntx { s with evlatch := s.evlatch &&& ~~~(value.setWidth 5) }

/-- The entry of a latched cause changes to a vector from any other value (R192). -/
def newlyMapped (latch : BitVec 5) (old new : BitVec 15) (c : Cause) : Bool :=
  latched latch c && decide (mapEntry new c < 4) && decide (mapEntry new c ≠ mapEntry old c)

/-- A write to EVMAP (R192): one message for each latched cause newly mapped to a vector, in the order of EVLATCH (log entry
43). -/
def writeEvmap (value : Word32) (s : State) : State :=
  let new : BitVec 15 := value.setWidth 15
  let moved := allCauses.filter (newlyMapped s.evlatch s.evmap new)
  refreshIntx (moved.foldl (fun t c => messageIfMapped c t) { s with evmap := new })

/-- The host enables or disables message signalling (R192): INTx follows, and no message is sent. -/
def setSignalling (enabled : Bool) (vectors : VectorCount) (s : State) : State :=
  refreshIntx { s with msgEnabled := enabled, msgVectors := vectors }

/-! ## Device status (R186) -/

def faultTable : BitVec 4 := 1#4
def faultProgress : BitVec 4 := 2#4
def faultState : BitVec 4 := 4#4
def faultOverrun : BitVec 4 := 8#4

/-- Setting a DEVSTAT bit (R186): the stream concerned goes into bits 11 to 8, and DEVICE_FAULT is signalled at every
setting. -/
def setFault (bit : BitVec 4) (stream : BitVec 4) (s : State) : State :=
  signal .deviceFault { s with faults := s.faults ||| bit, lastFault := stream }

/-- A write to DEVSTAT (R186): each fault bit written as 1 is cleared, bits 11 to 8 keep their value. -/
def clearFaults (value : Word32) (s : State) : State :=
  { s with faults := s.faults &&& ~~~(value.setWidth 4) }

/-! ## Register reads (R182) -/

def cmdWord (c : CmdReg) : Word32 :=
  c.tag.setWidth 32 <<< 16 ||| (resultBits c.result).setWidth 32 <<< 8 |||
  (BitVec.ofBool c.skip).setWidth 32 <<< 7 ||| c.code.setWidth 32 <<< 4 ||| c.stream.setWidth 32

def devstatWord (s : State) : Word32 :=
  s.lastFault.setWidth 32 <<< 8 ||| s.faults.setWidth 32

/-- The content of the register at a 4-byte aligned offset of the window, 0 at offsets 0x24 to 0x3F (R182). -/
def readRegister (s : State) (offset : Nat) : Word32 :=
  match offset with
  | 0x00 => Config.idWord
  | 0x04 => (BitVec.ofBool s.enable).setWidth 32
  | 0x08 => devstatWord s
  | 0x0C => s.polliv.setWidth 32
  | 0x10 => s.tbaseLo
  | 0x14 => s.tbaseHi
  | 0x18 => cmdWord s.cmd
  | 0x1C => s.evlatch.setWidth 32
  | 0x20 => s.evmap.setWidth 32
  | _ => 0#32

/-- The byte a host read finds at an offset of the window (R182: a read of fewer than four bytes returns the bytes
addressed; all multi-byte registers are little endian). -/
def readWindow (s : State) (offset : Nat) : Byte :=
  (readRegister s (offset / 4 * 4) >>> (8 * (offset % 4))).setWidth 8

/-- The reel table address (10.1): TBASE_HI and TBASE_LO together. -/
def tableBase (s : State) : Nat :=
  s.tbaseHi.toNat * 2 ^ 32 + s.tbaseLo.toNat

end Sys2Proof.Machine
end

