-- ==== Sys2Proof/Machine/Ops.lean ====
section
/-! DEFINITION. The shared operations of the part: streams, write queues, progress records, transitions, span failures,
the chain's wait, and the issue of writes. -/

namespace Sys2Proof.Machine

/-! ## Streams -/

/-- The record of stream `k`. -/
def State.stream (s : State) (k : StreamId) : Stream :=
  s.streams[k]

/-- The state with another record for stream `k`. -/
def State.setStream (s : State) (k : StreamId) (x : Stream) : State :=
  { s with streams := s.streams.set k x }

/-- Change the record of stream `k`. -/
def onStream (k : StreamId) (f : Stream → Stream) (s : State) : State :=
  s.setStream k (f (s.stream k))

/-- The streams counted upward from the one after `last`, wrapping from 11 to 0, `last` itself last (R171, R174, R175). -/
def roundRobin (last : StreamId) : List StreamId :=
  (List.finRange 12).map fun i => last + 1 + i

/-- The first stream after `last` that satisfies `p`. -/
def firstAfter (last : StreamId) (p : StreamId → Bool) : Option StreamId :=
  (roundRobin last).find? p

/-! ## Write queues (R175) -/

/-- An item enters the end of a stream's write queue. -/
def pushWrite (w : Write) (x : Stream) : Stream :=
  { x with queue := x.queue ++ [w] }

def stateWrite (addr word : Nat) (tag : WriteTag) : Write :=
  { addr := addr, bytes := leBytes 4 word, tag := tag }

/-- A report goes to offset 0x80 of its descriptor (R193). -/
def reportWrite (addr : Nat) (bytes : List Byte) (tag : WriteTag) : Write :=
  { addr := addr + 0x80, bytes := bytes, tag := tag }

/-! ## Progress records (R189, R190) -/

/-- The active-lanes mask of a progress record (R189): empty while the stream is CLOSED or OPENING. While a block of the stream is in
progress it is the mask after the whole block: the model's DESIGN CHOICE (log entry 49). -/
def liveMask (x : Stream) : LaneMask :=
  match x.state, x.ctx with
  | .closed, _ => 0#3
  | .opening, _ => 0#3
  | _, none => 0#3
  | _, some ctx => activeMask ctx.config ctx.lanes

/-- The write of a stream's progress record with its present content, to an address. -/
def recordWrite (k : StreamId) (x : Stream) (addr : Nat) : Write :=
  { addr := addr, bytes := progressBytes k x (liveMask x), tag := .progress }

/-- The Stream Controller hands a progress record to the Write-back Unit (R190), behind the records that the stream owes: the
records of a stream describe its events in order (R189; log entry 18). With no progress address known, as before an entry has
been read, there is none to write (R131, R187). -/
def handRecord (k : StreamId) (x : Stream) : Stream :=
  match x.progressAddr with
  | none => x
  | some a => if x.owed = [] then pushWrite (recordWrite k x a) x else { x with owed := x.owed ++ [x.state] }

/-- A progress record with the stream's present state waits for the report of an anchor's RELEASED word (R190). -/
def oweRecord (x : Stream) : Stream :=
  { x with owed := x.owed ++ [x.state] }

/-- The owed records are handed over, oldest first: each with the state of its own event, and every other field as it now
stands (R189). -/
def handOwed (k : StreamId) (x : Stream) : Stream :=
  match x.progressAddr with
  | none => { x with owed := [] }
  | some a =>
      { x with queue := x.queue ++ x.owed.map (fun st => recordWrite k { x with state := st } a), owed := [] }

/-! ## Waits (R149, R150) -/

/-- A wait ends: its timer stops and no read is due (R150). -/
def endWait (x : Stream) : Stream :=
  { x with chain := { x.chain with wait := .none }, timer := none, readDue := false, pollAgain := false }

/-! ## Transitions (R130, R131) -/

/-- A transition whose progress record follows at once. -/
def enterState (k : StreamId) (st : StreamState) (x : Stream) : Stream :=
  handRecord k { x with state := st }

/-- The entry to STOPPED or HALTED (R130): the tag is incremented before the record is handed over. -/
def enterRest (k : StreamId) (st : StreamState) (x : Stream) : Stream :=
  handRecord k { x with state := st, tag := x.tag + 1 }

/-- The entry to STOPPED with its event (R130, R131). -/
def enterStopped (k : StreamId) (s : State) : State :=
  signal .stopped (onStream k (enterRest k .stopped) s)

/-- The entry to HALTED with its event (R130, R131). -/
def enterHalted (k : StreamId) (s : State) : State :=
  signal .attention (onStream k (enterRest k .halted) s)

/-! ## The fetch transaction (R173, R174) -/

/-- A fetch transaction of the stream is in progress. -/
def fetching (s : State) (k : StreamId) : Bool :=
  match s.fetch with
  | none => false
  | some t => decide (t.stream = k)

/-- A phase that belongs to a take or a skip. -/
def takePhase : FetchPhase → Bool
  | .header _ | .marks .. | .profile .. | .active .. | .skip .. => true
  | .lane .. | .wait .. | .entry _ | .openProfile _ => false

/-- A take or skip of the stream is in progress. -/
def taking (s : State) (k : StreamId) : Bool :=
  match s.fetch with
  | none => false
  | some t => decide (t.stream = k) && takePhase t.phase

/-- A take of the stream is in progress that may still write a span ACTIVE. -/
def mayTake (s : State) (k : StreamId) : Bool :=
  match s.fetch with
  | none => false
  | some t => decide (t.stream = k) && match t.phase with
      | .header _ | .marks .. | .profile .. | .active .. => true
      | .lane .. | .wait .. | .skip .. | .entry _ | .openProfile _ => false

/-- A link wait read of the stream's span at an address is in progress. -/
def readingLink (s : State) (k : StreamId) (addr : Nat) : Bool :=
  match s.fetch with
  | some { stream := j, phase := .wait .link a _ _ } => decide (j = k) && decide (a = addr)
  | _ => false

/-- A wait read in progress starts nothing further once the stream has left RUNNING and AWAIT_LINK (R173; log entry 17). -/
def markStale (k : StreamId) (s : State) : State :=
  match s.fetch with
  | some { stream := j, phase := .wait target addr whole _ } =>
      if j = k then { s with fetch := some { stream := j, phase := .wait target addr whole true } } else s
  | _ => s

def endFetch (s : State) : State :=
  { s with fetch := none }

/-- The engine serves a block or flush of the stream. -/
def serving (s : State) (k : StreamId) : Bool :=
  match s.engine with
  | none => false
  | some e => decide (e.stream = k)

/-- A rollback of the stream has begun and not ended (R137, R173): ABORTING or HALTING, with no block and no fetch of it in
progress. It begins with the wait for the writes that are queued. -/
def rollingBack (s : State) (k : StreamId) : Bool :=
  ((s.stream k).state == .aborting || (s.stream k).state == .halting) && !serving s k && !fetching s k

/-- RUNNING or AWAIT_LINK: the states in which the chain is followed (R148). -/
def follows (st : StreamState) : Bool :=
  match st with
  | .running | .awaitLink => true
  | _ => false

/-! ## The taken-span list (R116) -/

/-- Change one entry of the taken-span list. -/
def onTaken (tid : Nat) (f : Taken → Taken) (x : Stream) : Stream :=
  { x with taken := x.taken.map fun t => if t.tid = tid then f t else t }

def findTaken (x : Stream) (tid : Nat) : Option Taken :=
  x.taken.find? fun t => decide (t.tid = tid)

/-- A span begins when its first sample enters the Lane Combiner (6.4). -/
def hasBegun (t : Taken) : Bool :=
  t.start.isSome

/-- The number of blocks of a span (R168). -/
def blockCount (t : Taken) : Nat :=
  (t.header.count + 1023) / Config.blockLength

/-- Every block of the span has been processed. -/
def allProcessed (t : Taken) : Bool :=
  decide (t.processed = blockCount t)

/-- Every sample of every span the stream has taken has been voted (R121). -/
def allVoted (x : Stream) : Bool :=
  x.taken.all allProcessed

/-- The newest begun span, of those not finished. -/
def newestBegun (x : Stream) : Option Taken :=
  (x.taken.filter hasBegun).getLast?

/-- A stream with every taken sample voted and no further span held enters AWAIT_LINK (R121), unless the engine serves
it. -/
def awaitIfVoted (k : StreamId) (s : State) : State :=
  let x := s.stream k
  if x.state = .running ∧ serving s k = false ∧ allVoted x = true then onStream k (enterState k .awaitLink) s else s

/-! ## Stopping (R123) -/

/-- A queued write that is the state word of the newest begun span. -/
def newestFinish (x : Stream) (w : Write) : Bool :=
  match w.tag, newestBegun x with
  | .finish tid _, some t => decide (tid = t.tid)
  | _, _ => false

/-- Writes enter the queue at its end, but before a queued state word of the newest begun span. -/
def pushAhead (ws : List Write) (x : Stream) : Stream :=
  { x with queue :=
      x.queue.takeWhile (fun v => !newestFinish x v) ++ ws ++ x.queue.dropWhile (fun v => !newestFinish x v) }

/-- An ACTIVE word queued behind a state word of the newest begun span moves ahead of that word, so that the span it takes can
be given back before it (R122, R123 step 4; log entry 9). Any other ACTIVE word keeps its place (R175). -/
def advanceActive (x : Stream) : Stream :=
  match (x.queue.dropWhile fun v => !newestFinish x v).find? (fun w => decide (w.tag = .active)) with
  | none => x
  | some w => pushAhead [w] { x with queue := x.queue.filter fun v => !decide (v.tag = .active) }

/-- Some span of the list has neither begun nor been given back. -/
def owesGiveBack (x : Stream) : Bool :=
  x.taken.any fun u => !hasBegun u && !u.givingBack

/-- The staged block is of a span that has not begun. -/
def stagedUnbegun (x : Stream) : Bool :=
  match x.staging with
  | none => false
  | some st => match findTaken x st.tid with
      | none => false
      | some t => !hasBegun t

/-- The spans of the taken-span list that have not begun are given back, oldest first (R123 step 4): each is written POSTED, the
POSTED words precede the state word of the newest begun span (R176), the chain position becomes the oldest given back and the
expected sequence the one before its take. -/
def giveBackUnbegun (x : Stream) : Stream :=
  match x.taken.filter (fun t => !hasBegun t && !t.givingBack) with
  | [] => x
  | t :: ts =>
      { pushAhead ((t :: ts).map fun u => stateWrite u.addr wordPosted (.giveBack u.tid)) x with
        taken := x.taken.map fun u => if hasBegun u then u else { u with givingBack := true }
        position := .span t.addr
        chain := { x.chain with anchor := none, expected := t.expBefore }
        staging := if stagedUnbegun x then none else x.staging
        gaveBack := true }

/-- A FINISHED anchor becomes the chain position of a stop that gave nothing back (R123). -/
def stopPosition (x : Stream) : ChainPosition :=
  if x.gaveBack then x.position
  else match x.chain.anchor with
    | some a => if a.finished then .anchor a.addr else x.position
    | none => x.position

/-- The stop work of a STOPPING stream is done while no block and no fetch of it is in progress (R117, R172, R173, R194; log
entry 16): its spans not begun are given back, or, with every begun span finished and every other given back, it enters
STOPPED (R123). -/
def settleStop (k : StreamId) (s : State) : State :=
  let x := s.stream k
  if x.state = .stopping ∧ serving s k = false ∧ fetching s k = false then
    if x.taken = [] then enterStopped k (onStream k (fun y => { y with position := stopPosition y }) s)
    else onStream k giveBackUnbegun s
  else s

/-! ## The end of CLOSE (R128) -/

/-- The chain context of a closed stream is emptied (R128): a FINISHED anchor is written RELEASED, and the owed record follows
that write; with none it is handed over at once (R190; log entry 19). -/
def closeChain (k : StreamId) (x : Stream) : Stream :=
  let y := { x with chain := Chain.empty }
  match x.chain.anchor with
  | some a =>
      if a.finished then pushWrite (stateWrite a.addr wordReleased (.anchorRelease .close a.sequence)) y
      else { handOwed k y with progressAddr := none }
  | none => { handOwed k y with progressAddr := none }

/-! ## Span failures (R125, R126) -/

/-- A stream enters HALTING (R125): the failing-span record is set, the skip request becomes absent, the wait ends and the
staging store is emptied (R169). -/
def enterHalting (k : StreamId) (h : Halt) (x : Stream) : Stream :=
  enterState k .halting
    (endWait { x with
      failing := some { addr := h.addr, code := h.code }, halt := some h, skip := none, staging := none })

/-- A span failure is reported (R125, R126): recorded in RUNNING, AWAIT_LINK and STOPPING, and not in ABORTING or HALTING.
-/
def failSpan (k : StreamId) (h : Halt) (s : State) : State :=
  match (s.stream k).state with
  | .running | .awaitLink | .stopping => onStream k (enterHalting k h) s
  | _ => s

/-- A take ends with a failure (R144 to R147). -/
def failTake (k : StreamId) (addr : Nat) (echo : Seq) (code : Completion) (s : State) : State :=
  failSpan k { addr := addr, code := code, tid := none, echo := echo, expBefore := (s.stream k).chain.expected }
    (endFetch s)

/-- A write that belongs to a span's finish: its report or its state word (R179). -/
def ofFinish (tid : Nat) (tag : WriteTag) : Bool :=
  match tag with
  | .report t => decide (t = tid)
  | .finish t _ => decide (t = tid)
  | _ => false

/-- A failed write fails a span of the taken-span list; what is queued of the span's finish is not written (R179). -/
def failTaken (k : StreamId) (tid : Nat) (code : Completion) (s : State) : State :=
  match findTaken (s.stream k) tid with
  | none => s
  | some t =>
      failSpan k { addr := t.addr, code := code, tid := some tid, echo := t.header.sequence, expBefore := t.expBefore }
        (onStream k (fun x => { x with queue := x.queue.filter fun w => !ofFinish tid w.tag }) s)

/-! ## Beginning a take, following a link (R144, R148, R195) -/

/-- A take begins at a span address (R144): the chain position becomes that address, and the header is read, unless the
address is misaligned. -/
def beginTake (k : StreamId) (addr : Nat) (s : State) : State :=
  let s1 := onStream k (fun x => endWait { x with position := .span addr }) s
  if addr % 64 = 0 then { s1 with fetch := some { stream := k, phase := .header addr } }
  else failTake k addr 0 .descInvalid s1

/-- The bypass entry of a preceding span (R195). -/
def bypassOf (c : Chain) (preceding : Nat) : Option Bypass :=
  c.bypass.find? fun b => decide (b.preceding = preceding)

def dropBypass (preceding : Nat) (c : Chain) : Chain :=
  { c with bypass := c.bypass.filter fun b => !decide (b.preceding = preceding) }

/-- A nonzero next-link of the anchor is followed (R148). When it is the skipped address of the anchor's bypass entry, the
take begins at the entry's recorded next-link; when it differs, the entry is dropped (R195). -/
def followLink (k : StreamId) (anchor link : Nat) (s : State) : State :=
  match bypassOf (s.stream k).chain anchor with
  | none => beginTake k link s
  | some b =>
      if b.skipped = link then
        beginTake k b.link
          (onStream k (fun x => { x with chain := { x.chain with expected := some (b.sequence + 1) } }) s)
      else beginTake k link (onStream k (fun x => { x with chain := dropBypass anchor x.chain }) s)

/-! ## Issue of writes (R175) -/

/-- Data writes are containers and log entries; every other write is ordered. -/
def isData : WriteTag → Bool
  | .container _ | .logEntry _ => true
  | _ => false

/-- The stream's writes issued and not yet reported. -/
def issuedOf (s : State) (k : StreamId) : List Issued :=
  s.issued.filter fun i => decide (i.stream = k)

/-- Two containers of one span whose addresses follow one another fall into one write of up to 256 bytes that crosses no
4,096-byte boundary. -/
def joins (w v : Write) : Bool :=
  match w.tag, v.tag with
  | .container t, .container u =>
      decide (t = u) && decide (v.addr = w.addr + w.bytes.length) &&
      decide (w.bytes.length + v.bytes.length ≤ 256) &&
      decide (w.addr / 4096 = (v.addr + v.bytes.length - 1) / 4096)
  | _, _ => false

/-- The queued containers that one gathered write takes (log entry 8). -/
def gather : Write → List Write → Write × List Write
  | w, [] => (w, [])
  | w, v :: rest =>
      if joins w v then gather { w with bytes := w.bytes ++ v.bytes } rest else (w, v :: rest)

/-- A span finishes RELEASED when a span after it in the list has been taken and not given back, or when it precedes a
bypass entry (R151, R196). A span whose POSTED word of a STOP has failed counts as given back (log entry 44). -/
def finishesReleased (x : Stream) (tid : Nat) : Bool :=
  match x.taken.dropWhile (fun t => !decide (t.tid = tid)) with
  | [] => false
  | t :: later => later.any (fun u => !u.givingBack) || (bypassOf x.chain t.addr).isSome

/-- The state word of a finishing span waits: RELEASED for a next-link read of the span in progress (R143), and the word of the
newest begun span of a STOPPING stream for a take in progress and for the spans still to be given back (R122, R123 step 4). -/
def finishHeld (s : State) (k : StreamId) (w : Write) : Bool :=
  match w.tag with
  | .finish tid _ =>
      let x := s.stream k
      (finishesReleased x tid && readingLink s k w.addr) ||
        (x.state == .stopping && newestFinish x w && (mayTake s k || owesGiveBack x))
  | _ => false

/-- The stream's next queued write can be issued: a data write while no ordered write of the stream is out, an ordered write
while no write of the stream is out and it need not wait. -/
def issuable (s : State) (k : StreamId) : Bool :=
  match (s.stream k).queue with
  | [] => false
  | w :: _ =>
      if isData w.tag then (issuedOf s k).all fun i => isData i.write.tag
      else (issuedOf s k).isEmpty && !finishHeld s k w

/-- The state word of a finishing span takes its value when it is issued (R151; log entry 9). -/
def resolveFinish (x : Stream) (w : Write) : Write :=
  match w.tag with
  | .finish tid _ =>
      let released := finishesReleased x tid
      stateWrite w.addr (if released then wordReleased else wordFinished) (.finish tid released)
  | _ => w

/-- The next queued write of a stream is issued. -/
def issueOne (k : StreamId) (s : State) : State :=
  match (s.stream k).queue with
  | [] => s
  | w :: rest =>
      let (g, rest1) := gather w rest
      { onStream k (fun x => { x with queue := rest1 }) s with
        issued := s.issued ++ [{ stream := k, write := resolveFinish (s.stream k) g }]
        writeLast := k }

/-- Writes are issued while any can be, round robin over the streams (R175). `fuel` bounds their number. -/
def issueLoop : Nat → State → State
  | 0, s => s
  | n + 1, s =>
      match firstAfter s.writeLast (issuable s) with
      | none => s
      | some k => issueLoop n (issueOne k s)

/-- The number of queued writes of all streams. -/
def queuedWrites (s : State) : Nat :=
  ((List.finRange 12).map fun k => (s.stream k).queue.length).sum

/-- Every write that can be issued is issued. -/
def drain (s : State) : State :=
  issueLoop (queuedWrites s) s

end Sys2Proof.Machine
end

