-- ==== Sys2Proof/Machine/Engine.lean ====
section
/-! DEFINITION. The Restoration Engine: one sample through the stages, span starts, blocks and flushes (R133, R168). -/

namespace Sys2Proof.Machine

/-! ## One sample -/

/-- What the stages know of the span being voted. -/
structure SpanInfo where
  start : Nat
  count : Nat
  last : Bool
  protectAll : Bool
  sched : Schedule
  deriving DecidableEq, Repr

/-- The absolute position of the span's last sample. -/
def lastPosition (sp : SpanInfo) : Nat :=
  sp.start + sp.count - 1

def isDisputed (b : Bool) (n : Nat) : Nat :=
  if b then n + 1 else n

/-- What voting, tracking and subtracting one sample adds to its span's tallies (R16, R18, R19, R31, R47, R109). -/
def countSample (vote : Vote) (change : LaneChange) (mask : Option LaneMask) (overrun humClamp : Bool) (t : Tally) :
    Tally :=
  { t with
    disputed := isDisputed vote.disputed t.disputed
    unresolved := isDisputed vote.unresolved t.unresolved
    retirements := isDisputed (change == .retirement) t.retirements
    reinstatements := isDisputed (change == .reinstatement) t.reinstatements
    phaseOverruns := isDisputed overrun t.phaseOverruns
    humClamps := isDisputed humClamp t.humClamps
    mask := match mask with | none => t.mask | some m => some m
    votedCrc := crcBytes t.votedCrc (votedBytes vote.v) }

/-- The templates learn from a sample that is not void, not disputed and not flagged (R50). -/
def learnIfEligible (p : Profile) (bin : Option Nat) (u : Sample) (disputed flagged : Bool) (h : HumState) : HumState :=
  match u with
  | .void _ => h
  | .value x =>
      if disputed || flagged then h else learn p.perfShift p.lineShift p.linePeriod bin x h

/-- A sample's vote, tracking, subtraction, classification and learning, up to step 6 of R67, with its held record. -/
def frontStages (sp : SpanInfo) (row : LaneRow) (r : Run) : Held × Run :=
  let ctx := r.ctx
  let p := ctx.profile
  let n := ctx.position
  let (vote, lanes, change) := combine p.disputeTol p.retireLimit row ctx.lanes
  let (attrs, marks) := track sp.sched p.spliceWidth sp.start (lastPosition sp) sp.protectAll n ctx.marks
  let hum1 := if attrs.splice then spliceReset p.spliceHumReset ctx.hum else ctx.hum
  let (u, humClamp) := cancelHum p.perfShift p.linePeriod attrs.bin hum1 vote.v
  let cl := classify p ctx.click u vote.unresolved attrs.bump
  let hum2 := learnIfEligible p attrs.bin u vote.disputed cl.flagged hum1
  let h : Held :=
    { pos := n, span := sp.start, u := u, unresolved := vote.unresolved, prot := attrs.prot, bump := attrs.bump
      refEnd := attrs.refEnd, absE := cl.absE, flagged := cl.flagged }
  let mask := if n = lastPosition sp then some (activeMask ctx.config lanes) else none
  (h, { r with
    ctx := { ctx with
      lanes := lanes
      marks := marks
      hum := advanceLine p.linePeriod hum2
      click := holdSample h cl.noise ctx.click
      position := n + 1
      tallies := onTally sp.start (countSample vote change mask attrs.overrun humClamp) ctx.tallies }
    laneChanges := isDisputed (change != .none) r.laneChanges })

/-- The flush at the end of a LAST span, which sets the reel-end mark (R82, R115). -/
def flushReel (lastPos : Nat) (r : Run) : Run :=
  let r1 := flushClick lastPos r
  { r1 with ctx := { r1.ctx with reelEnd := true } }

/-- One sample position through the stages (R67, R168). -/
def sampleStep (sp : SpanInfo) (r : Run) (row : LaneRow) : Run :=
  let p := r.ctx.profile
  let (h, r1) := frontStages sp row r
  let r2 := updateWindow p h r1
  let r3 := if h.pos = lastPosition sp ∧ sp.last = true then flushReel (lastPosition sp) r2 else r2
  releaseAfter p.guard h.pos r3

/-! ## Span start (R133) -/

/-- A fresh signal context (R114). -/
def freshContext (cfg : StreamConfig) (p : Profile) (clampMark : Bool) : SignalContext :=
  { config := cfg, lanes := freshLanes, marks := freshMarks, hum := freshHum, click := freshClick p.noiseMin
    hiss := freshHiss (hissParams p), profile := p, position := 0, reelEnd := false, pendingClamp := clampMark
    tallies := [] }

/-- A profile's held values are applied at a span start within a reel (R41, R56, R62, R91, R133 step 3). -/
def applyProfile (p : Profile) (ctx : SignalContext) : SignalContext :=
  { ctx with
    profile := p
    hum := if p.linePeriod = ctx.profile.linePeriod then ctx.hum else zeroLine ctx.hum
    click := { ctx.click with noise := clampNoise p.noiseMin ctx.click.noise }
    hiss := { ctx.hiss with pendingParams := some (hissParams p) } }

/-- Steps 2 and 3 of R133: a reel starts, or the span's profile is applied. -/
def startContext (profile : Option Profile) (ctx : SignalContext) : SignalContext :=
  if ctx.reelEnd then freshContext ctx.config ((profile.map limitProfile).getD ctx.profile) ctx.pendingClamp
  else match profile with
    | none => ctx
    | some q => applyProfile (limitProfile q) ctx

/-- Step 5 of R133: FRESH_LANES and RESET_HUM. PROTECT_ALL acts sample by sample (R34). -/
def applyFlags (h : Header) (ctx : SignalContext) : SignalContext :=
  { ctx with
    lanes := if h.freshLanes then applyFreshLanes ctx.lanes else ctx.lanes
    hum := if h.resetHum then freshHum else ctx.hum }

/-- The tallies opened for a span as it begins (R133 steps 1, 3, 4 and 6). -/
def openTally (t : Taken) (start : Nat) (clampMark : Bool) : Tally :=
  { freshTally start t.header.count t.header.logCapacity with
    clamped := (match t.profile with | none => false | some q => profileClamped q) || clampMark
    marksIgnored := marksIgnored t.header.count t.marks }

/-- The signal context as the span's first sample is voted (R133). -/
def startSpan (t : Taken) (ctx : SignalContext) : SignalContext :=
  let c := applyFlags t.header (startContext t.profile ctx)
  { c with
    pendingClamp := false
    tallies := c.tallies ++ [openTally t c.position c.pendingClamp] }

/-- A span begins (R133, R135): the checkpoint goes to the lower free slot, then the context starts the span. -/
def beginSpan (t : Taken) (x : Stream) : Stream :=
  match x.ctx with
  | none => x
  | some ctx =>
      let c := startSpan t ctx
      let copy : Checkpoint := { ctx := ctx, span := t.addr }
      let start := (startContext t.profile ctx).position
      onTaken t.tid (fun u => { u with start := some start, slot := some x.slot0.isSome })
        { x with
          slot0 := if x.slot0.isSome then x.slot0 else some copy
          slot1 := if x.slot0.isSome then some copy else x.slot1
          ctx := some c
          schedule := some (buildSchedule start t.header.count t.marks) }

/-! ## What a block hands on -/

/-- The span of the list whose samples are still in the data path and which begins at a position. The span before a restored
checkpoint has finished and is no longer in the list (R138). -/
def liveSpan (x : Stream) (span : Nat) : Option Taken :=
  x.taken.find? fun t => decide (t.start = some span) && t.final.isNone

/-- One hand-over of a block (R85, R105, R107, R175). For a span that has finished before, nothing is written (R138). A
complete span's report and the state word after it are queued (R151, R163, R179; log entry 9). -/
def handOver (x : Stream) : Emit → Stream
  | .container span index bytes =>
      match liveSpan x span with
      | none => x
      | some t =>
          pushWrite { addr := t.header.outputAddr + index * bytes.length, bytes := bytes, tag := .container t.tid } x
  | .logEntry span slot bytes =>
      match liveSpan x span with
      | none => x
      | some t => pushWrite { addr := t.header.logAddr + 16 * slot, bytes := bytes, tag := .logEntry t.tid } x
  | .complete span tally =>
      match liveSpan x span with
      | none => x
      | some t =>
          onTaken t.tid (fun u => { u with final := some tally })
            (pushWrite { addr := t.addr, bytes := [], tag := .finish t.tid false }
              (pushWrite (reportWrite t.addr (reportBytes .ok t.header.sequence tally 0 0) (.report t.tid)) x))

/-- The end of a run of the engine: the context goes back and everything handed over is queued in order. -/
def finishRun (r : Run) (x : Stream) : Stream :=
  r.emits.foldl handOver { x with ctx := some r.ctx }

/-! ## Blocks and flushes (R168) -/

/-- Failed lane reads are counted for the span whose block they voided (R6; log entry 23). -/
def countFetch (n : Nat) (lanes : List ReadResult) (t : Tally) : Tally :=
  let failed := (lanes.filter Option.isNone).length
  { t with fetchFailed := t.fetchFailed + failed, fetchVoid := t.fetchVoid + failed * n }

/-- The span information of a begun span. -/
def spanInfo (t : Taken) (start : Nat) (sched : Schedule) : SpanInfo :=
  { start := start, count := t.header.count, last := t.header.last, protectAll := t.header.protectAll, sched := sched }

/-- The first positions of the begun spans of the list whose samples are still in the data path. -/
def liveStarts (x : Stream) : List Nat :=
  (x.taken.filter fun t => t.final.isNone).filterMap Taken.start

/-- The samples of a staged block through the stages. -/
def blockRun (sp : SpanInfo) (st : Staged) (live : List Nat) (ctx : SignalContext) : Run :=
  let ctx1 := { ctx with tallies := onTally sp.start (countFetch st.count st.lanes) ctx.tallies }
  (blockRows ctx.config st.count st.lanes).foldl (sampleStep sp)
    { ctx := ctx1, live := live, emits := [], laneChanges := 0 }

/-- A staged block is processed (R168): block 0 begins its span first. The lane changes of the block are reported at its
end (R20). -/
def processBlock (st : Staged) (x : Stream) : Stream × Nat :=
  match findTaken x st.tid with
  | none => ({ x with staging := none }, 0)
  | some t =>
      let x1 := if st.block = 0 then beginSpan t { x with staging := none } else { x with staging := none }
      match findTaken x1 st.tid, x1.ctx, x1.schedule with
      | some u, some ctx, some sched =>
          match u.start with
          | none => (x1, 0)
          | some start =>
              let r := blockRun (spanInfo u start sched) st (liveStarts x1) ctx
              let x2 := onTaken u.tid (fun v => { v with processed := v.processed + 1 }) (finishRun r x1)
              ({ x2 with schedule := if u.processed + 1 = blockCount u then none else x2.schedule }, r.laneChanges)
      | _, _, _ => (x1, 0)

/-- The number of begun and unfinished spans (R134). -/
def begunCount (x : Stream) : Nat :=
  (x.taken.filter hasBegun).length

/-- The stop flush at the last sample of the newest begun span (R83, R123 step 3). -/
def processFlush (x : Stream) : Stream :=
  match newestBegun x, x.ctx with
  | some t, some ctx =>
      match t.start with
      | none => { x with flushMade := true }
      | some start =>
          finishRun (flushClick (start + t.header.count - 1)
            { ctx := ctx, live := liveStarts x, emits := [], laneChanges := 0 })
            { x with flushMade := true }
  | _, _ => { x with flushMade := true }

end Sys2Proof.Machine
end

