-- ==== Sys2Proof/Machine/EngineSteps.lean ====
section
/-! DEFINITION. The Restoration Engine arbiter: ENGINE_GRANT and BLOCK_END (R170 to R172, R194). -/

namespace Sys2Proof.Machine

/-! ## Readiness (R170) -/

/-- Block ready: RUNNING with a staged block, which may begin a span only while fewer than two begun spans are unfinished. -/
def blockReady (x : Stream) : Bool :=
  x.state == .running && match x.staging with
    | none => false
    | some st => st.block != 0 || decide (begunCount x < 2)

/-- STOPPING block ready: a staged block of a begun span. -/
def stoppingReady (x : Stream) : Bool :=
  x.state == .stopping && match x.staging with
    | none => false
    | some st => match findTaken x st.tid with
        | none => false
        | some t => hasBegun t

/-- Flush due: the stop flush of a STOPPING stream (R168, R170). -/
def flushDue (x : Stream) : Bool :=
  x.state == .stopping && !x.flushMade && match newestBegun x with
    | none => false
    | some t => allProcessed t && !t.header.last

/-- The stream is ready for the Restoration Engine (R170; ENABLE is the arbiter's). -/
def ready (s : State) (k : StreamId) : Bool :=
  let x := s.stream k
  blockReady x || stoppingReady x || flushDue x

/-- The grant to one stream: its staged block, or its stop flush, runs through the stages (R168, R171). The work of the whole block
is done here (log entry 4), so a progress record handed over while the block is in progress shows the active lanes as the block
leaves them: the model's DESIGN CHOICE (R20, R172, R189; log entry 49). -/
def grantEngine (k : StreamId) (s : State) : State :=
  let x := s.stream k
  let done : Stream × Nat :=
    match x.staging with
    | some st => if blockReady x || stoppingReady x then processBlock st x else (processFlush x, 0)
    | none => (processFlush x, 0)
  { s.setStream k done.1 with engine := some { stream := k, laneChanges := done.2 }, engineLast := k }

/-- ENGINE_GRANT (R171, R180): with the engine serving, ENABLE 0 or no stream ready, nothing is granted. -/
def execEngineGrant (s : State) : Host.Outcome State Fault Refusal :=
  if s.enable = true ∧ s.engine = none then
    match firstAfter s.engineLast (ready s) with
    | none => .next s
    | some k => .next (drain (grantEngine k s))
  else .next s

/-- What the Stream Controller does at a block end by the stream's state (R172). A rollback is ROLLBACK's. -/
def afterBlock (k : StreamId) (s : State) : State :=
  match (s.stream k).state with
  | .running => awaitIfVoted k s
  | .stopping => settleStop k s
  | _ => s

/-- BLOCK_END (R172, R194): one LANE_CHANGE for each change in the block, whatever state the stream has reached. -/
def execBlockEnd (s : State) : Host.Outcome State Fault Refusal :=
  match s.engine with
  | none => .next s
  | some e =>
      .next (drain (afterBlock e.stream (signalTimes e.laneChanges .laneChange { s with engine := none })))

end Sys2Proof.Machine
end

