-- ==== Sys2Proof/Machine/Fetch.lean ====
section
/-! DEFINITION. The Chain Fetch Unit (chapter 7, 9.4): its arbiter, lane reads, takes, waits, skips and open reads. -/

namespace Sys2Proof.Machine

/-! ## Requests (R169, R174) -/

/-- The stream's next block: its span and number (R169). -/
def nextBlock (x : Stream) : Option Taken :=
  x.taken.find? fun t => decide (t.staged < blockCount t)

/-- The stream needs a lane read (R169; ENABLE is the arbiter's). -/
def needsLaneRead (x : Stream) : Bool :=
  x.staging.isNone && match nextBlock x with
    | none => false
    | some t => x.state == .running || (x.state == .stopping && hasBegun t)

/-- The stream needs a take, a link followed or a wait read (R148, R150). -/
def needsChainRead (x : Stream) : Bool :=
  follows x.state && x.taken.all hasBegun && (x.chain.wait == .none || x.readDue) && x.position != .none

/-- The stream needs its open read (R174). -/
def needsOpenRead (x : Stream) : Bool :=
  x.state == .opening && x.openDue

/-- The RELEASED word of the span at the chain position has been issued: its next-link is read no more (R143, R196). -/
def anchorLeaving (s : State) (k : StreamId) : Bool :=
  match (s.stream k).position with
  | .anchor a => (issuedOf s k).any fun i => match i.write.tag with
      | .finish _ true => decide (i.write.addr = a)
      | _ => false
  | _ => false

/-- The stream requests the Chain Fetch Unit (R174). -/
def requests (s : State) (k : StreamId) : Bool :=
  let x := s.stream k
  needsOpenRead x || needsLaneRead x || (needsChainRead x && !anchorLeaving s k)

/-! ## What a transaction reads -/

/-- The samples of block `j` of a span (R168). -/
def blockSize (t : Taken) (j : Nat) : Nat :=
  min Config.blockLength (t.header.count - Config.blockLength * j)

/-- The lane reads of a block (R2, R6): one per lane, the block's containers and nothing else. -/
def laneReads (cfg : StreamConfig) (t : Taken) (j : Nat) : List ReadReq :=
  (laneAddrs cfg.laneCount t.header).map fun a =>
    { addr := a + Config.blockLength * j * containerSize cfg.laneFormat
      len := blockSize t j * containerSize cfg.laneFormat }

/-- The reads of host memory that the phase has issued (R144 to R149, R187, 10.8). -/
def phaseReads : FetchPhase → List ReadReq
  | .lane _ _ _ reads => reads
  | .header a => [{ addr := a, len := 128 }]
  | .marks _ h => [{ addr := h.marksAddr, len := 8 * h.markCount }]
  | .profile _ h _ => [{ addr := h.profileAddr, len := 64 }]
  | .active .. => []
  | .wait _ a true _ => [{ addr := a, len := 128 }]
  | .wait .link a false _ => [{ addr := a + 0x50, len := 8 }]
  | .wait _ a false _ => [{ addr := a, len := 4 }]
  | .skip .. => []
  | .entry a => [{ addr := a, len := 64 }]
  | .openProfile e => [{ addr := e.profileAddr, len := 64 }]

/-! ## The grant (R174) -/

/-- An OPEN whose table entry cannot be read (R118, R186): TABLE_FAULT, CLOSED, ATTENTION, no record. -/
def failOpenTable (k : StreamId) (s : State) : State :=
  signal .attention (setFault faultTable (streamBits k) (onStream k (fun x => { x with state := .closed }) (endFetch s)))

/-- The open read (R118, R186): no entry read is made while TBASE is 0. -/
def grantOpen (k : StreamId) (s : State) : State :=
  let s1 := onStream k (fun x => { x with openDue := false }) s
  if tableBase s = 0 then failOpenTable k s1
  else { s1 with fetch := some { stream := k, phase := .entry (tableBase s + 64 * k.val) } }

/-- The lane read of the stream's next block (R6, R169). -/
def grantLane (k : StreamId) (s : State) : State :=
  match nextBlock (s.stream k), (s.stream k).ctx with
  | some t, some ctx =>
      let phase := FetchPhase.lane t.tid t.staged (blockSize t t.staged) (laneReads ctx.config t t.staged)
      { s with fetch := some { stream := k, phase := phase } }
  | _, _ => s

/-- A wait read (R149): of the anchor's next-link, or of the state word at the chain position; at the skip request either is a
read of the whole header (R154). -/
def startWaitRead (k : StreamId) (target : WaitTarget) (addr : Nat) (s : State) : State :=
  let whole := (s.stream k).skip == some addr
  { onStream k (fun x => { x with
      chain := { x.chain with wait := target }, timer := none, readDue := false, pollAgain := false }) s with
    fetch := some { stream := k, phase := .wait target addr whole false } }

/-- The next-link of the anchor as its snapshot holds it (R148). -/
def anchorLink (x : Stream) : Nat :=
  match x.chain.anchor with
  | none => 0
  | some a => a.link

/-- A take, a link followed, or a wait read (R148, R149). -/
def grantChain (k : StreamId) (s : State) : State :=
  let x := s.stream k
  match x.position with
  | .none => s
  | .span a => if x.chain.wait = .none then beginTake k a s else startWaitRead k .state a s
  | .anchor a =>
      if x.chain.wait = .none ∧ anchorLink x ≠ 0 then followLink k a (anchorLink x) s
      else startWaitRead k .link a s

/-- The grant to one stream: its open read, else a lane read while it needs one, else a take or a wait read (R174). -/
def grantFetch (k : StreamId) (s : State) : State :=
  let s1 := { s with fetchLast := k }
  if needsOpenRead (s.stream k) then grantOpen k s1
  else if needsLaneRead (s.stream k) then grantLane k s1
  else grantChain k s1

/-- FETCH_GRANT (R174, R180): with the unit busy, ENABLE 0 or no stream requesting, nothing is granted. -/
def execFetchGrant (s : State) : Host.Outcome State Fault Refusal :=
  if s.enable = true ∧ s.fetch = none then
    match firstAfter s.fetchLast (requests s) with
    | none => .next s
    | some k => .next (drain (grantFetch k s))
  else .next s

/-! ## Lane reads (R6, R169) -/

/-- The block of a span may be staged: its result is discarded when the stream has been aborted or halted, or a STOP has
given the span back (R169). -/
def stageable (x : Stream) (tid : Nat) : Bool :=
  match findTaken x tid with
  | none => false
  | some t => x.state == .running || (x.state == .stopping && hasBegun t)

/-- The results of a block's lane reads go into the staging store (R169). -/
def stageBlock (st : Staged) (x : Stream) : Stream :=
  if stageable x st.tid then
    onTaken st.tid (fun t => { t with staged := t.staged + 1 }) { x with staging := some st }
  else x

/-- LANE_READ_DONE (R6): every lane read of the block has been reported. -/
def execLaneReadDone (lanes : List ReadResult) (s : State) : Host.Outcome State Fault Refusal :=
  match s.fetch with
  | some { stream := k, phase := .lane tid block count reads } =>
      if lanes.length = reads.length then
        let data := List.zipWith (fun (q : ReadReq) r => validData q.len r) reads lanes
        .next (drain (settleStop k (onStream k
          (stageBlock { tid := tid, block := block, count := count, lanes := data }) (endFetch s))))
      else .next s
  | _ => .next s

/-! ## Takes (R144 to R147) -/

/-- The ACTIVE word of a take enters the write queue (R147); in STOPPING before a queued state word of the newest begun span,
so that the span can be given back before it (R122, R123 step 4; log entry 9). -/
def pushActive (addr : Nat) (x : Stream) : Stream :=
  let w := stateWrite addr wordActive .active
  if x.state = .stopping then pushAhead [w] x else pushWrite w x

/-- The ACTIVE write of a take (R147). -/
def takeActive (k : StreamId) (addr : Nat) (h : Header) (marks : List Mark) (profile : Option Profile) (s : State) :
    State :=
  { onStream k (pushActive addr) s with
    fetch := some { stream := k, phase := .active addr h marks profile } }

/-- The profile read of a take, when the span names a profile (R147). -/
def takeProfile (k : StreamId) (addr : Nat) (h : Header) (marks : List Mark) (s : State) : State :=
  if h.profileAddr = 0 then takeActive k addr h marks none s
  else { s with fetch := some { stream := k, phase := .profile addr h marks } }

/-- The marks read of a take, when the mark count is not 0 (R23, R147). -/
def takeMarks (k : StreamId) (addr : Nat) (h : Header) (s : State) : State :=
  if h.markCount = 0 then takeProfile k addr h [] s
  else { s with fetch := some { stream := k, phase := .marks addr h } }

/-- The lane count that a take's checks use (R145). -/
def streamLanes (x : Stream) : LaneCount :=
  match x.ctx with
  | none => .one
  | some ctx => ctx.config.laneCount

/-- The sequence check (R146): any sequence is accepted when none is expected. -/
def sequenceOk (expected : Option Seq) (sequence : Seq) : Bool :=
  match expected with
  | none => true
  | some e => e == sequence

/-- The header of a take reads POSTED (R145, R146). A skip request that named it becomes absent (R154). -/
def takeHeader (k : StreamId) (addr : Nat) (h : Header) (s : State) : State :=
  let s1 := onStream k (fun x => if x.skip = some addr then { x with skip := none } else x) s
  if headerValid (streamLanes (s.stream k)) h = false then failTake k addr h.sequence .descInvalid s1
  else if sequenceOk (s.stream k).chain.expected h.sequence = false then failTake k addr h.sequence .sequence s1
  else takeMarks k addr h s1

/-! ## Skips and waits (R149, R154) -/

/-- A header at the chain position is that of a span to be skipped now: the skip request names it, it reads FAILED, and its
link is known (R154). -/
def skipsNow (x : Stream) (addr : Nat) (h : Header) : Bool :=
  x.skip == some addr && h.state == wordFailed && h.link != 0

/-- The skip of a span: SKIPPED, then RELEASED (R154, R165). -/
def beginSkip (k : StreamId) (addr : Nat) (h : Header) (s : State) : State :=
  { onStream k (fun x =>
      pushWrite (stateWrite addr wordReleased .skipReleased)
        (pushWrite (reportWrite addr (leBytes 4 (completionCode .skipped)) .skipCode) (endWait x))) s with
    fetch := some { stream := k, phase := .skip addr h } }

/-- A take ends without failure at a span that is not POSTED (R144): the stream waits on its state word, whose first read is
due at once (log entry 10), and enters AWAIT_LINK when every sample has been voted (R120, R127). -/
def takeNotPosted (k : StreamId) (s : State) : State :=
  awaitIfVoted k (onStream k (fun x => { x with
    chain := { x.chain with wait := .state }, timer := none, readDue := true }) (endFetch s))

/-- The header read of a take has the header (R144, R154). Once the stream has left RUNNING and AWAIT_LINK, nothing is
waited on or skipped (R173; log entry 13). -/
def onHeader (k : StreamId) (addr : Nat) (h : Header) (s : State) : State :=
  if h.state = wordPosted then takeHeader k addr h s
  else if follows (s.stream k).state = false then settleStop k (endFetch s)
  else if skipsNow (s.stream k) addr h then beginSkip k addr h s
  else takeNotPosted k s

/-- HEADER_READ_DONE (R144). -/
def execHeaderReadDone (data : ReadResult) (s : State) : Host.Outcome State Fault Refusal :=
  match s.fetch with
  | some { stream := k, phase := .header addr } =>
      match validData 128 data with
      | none => .next (drain (failTake k addr 0 .descFault s))
      | some bytes => .next (drain (onHeader k addr (parseHeader bytes) s))
  | _ => .next s

/-- MARKS_READ_DONE (R23, R147). -/
def execMarksReadDone (data : ReadResult) (s : State) : Host.Outcome State Fault Refusal :=
  match s.fetch with
  | some { stream := k, phase := .marks addr h } =>
      match validData (8 * h.markCount) data with
      | none => .next (drain (failTake k addr h.sequence .marksFault s))
      | some bytes => .next (drain (takeProfile k addr h (parseMarks h.markCount bytes) s))
  | _ => .next s

/-- TAKE_PROFILE_READ_DONE (R132, R147). -/
def execTakeProfileReadDone (data : ReadResult) (s : State) : Host.Outcome State Fault Refusal :=
  match s.fetch with
  | some { stream := k, phase := .profile addr h marks } =>
      match validData 64 data with
      | none => .next (drain (failTake k addr h.sequence .profileFault s))
      | some bytes => .next (drain (takeActive k addr h marks (some (parseProfile bytes)) s))
  | _ => .next s

/-- A wait read continues the wait (R149, R150): the poll timer starts with the interval POLLIV holds, or the further read a
POLL asked for is due. -/
def continueWait (k : StreamId) (s : State) : State :=
  awaitIfVoted k (onStream k (fun x =>
    if x.pollAgain then { x with timer := none, readDue := true, pollAgain := false }
    else { x with timer := some s.polliv.toNat, readDue := false }) s)

/-- The next-link that a link wait read has found: the eight bytes read, or, at the skip request, the next-link of the whole
header (R149, R154). -/
def linkOfRead (whole : Bool) (data : ReadResult) : Option Nat :=
  if whole then (validData 128 data).map fun bytes => (parseHeader bytes).link
  else (validData 8 data).map leNat

/-- A link wait read completes (R149). A nonzero link is kept in the anchor's snapshot and followed (R141, R148). At an anchor
that the skip request names the header read is still a read of the next-link alone (log entry 46). -/
def linkRead (k : StreamId) (addr : Nat) (whole : Bool) (data : ReadResult) (s : State) : State :=
  match linkOfRead whole data with
  | none => continueWait k s
  | some link =>
      if link = 0 then continueWait k s
      else followLink k addr link (onStream k (fun x => { x with
        chain := { x.chain with anchor := x.chain.anchor.map fun a => { a with link := link } } }) s)

/-- A state wait read completes (R149). -/
def stateRead (k : StreamId) (addr : Nat) (data : ReadResult) (s : State) : State :=
  match validData 4 data with
  | none => continueWait k s
  | some bytes => if leNat bytes = wordPosted then beginTake k addr s else continueWait k s

/-- A wait read at the skip request completes: it has the whole header (R154). One that finds POSTED begins a take, whose own
header read decides, so the request stays until that read (R142, R149; log entry 39). -/
def skipRead (k : StreamId) (addr : Nat) (data : ReadResult) (s : State) : State :=
  match validData 128 data with
  | none => continueWait k s
  | some bytes =>
      let h := parseHeader bytes
      if h.state = wordPosted then beginTake k addr s
      else if skipsNow (s.stream k) addr h then beginSkip k addr h s
      else continueWait k s

/-- A wait read ends that was in progress when its stream left RUNNING and AWAIT_LINK (R173): it starts nothing further, and the
work that waited for it is done, of a stop or of CLOSE. -/
def endStale (k : StreamId) (s : State) : State :=
  if (s.stream k).state = .closed then onStream k (closeChain k) s else settleStop k s

/-- WAIT_READ_DONE (R149, R154, R173). -/
def execWaitReadDone (data : ReadResult) (s : State) : Host.Outcome State Fault Refusal :=
  match s.fetch with
  | some { stream := k, phase := .wait target addr whole stale } =>
      if stale = true ∨ follows (s.stream k).state = false then .next (drain (endStale k (endFetch s)))
      else match target with
        | .link => .next (drain (linkRead k addr whole data (endFetch s)))
        | _ =>
            if whole then .next (drain (skipRead k addr data (endFetch s)))
            else .next (drain (stateRead k addr data (endFetch s)))
  | _ => .next s

/-! ## OPEN (R118 to R120, R187) -/

/-- OPEN fails with a code and a record at a usable progress address (R119). The chain position is still absent, so its field in
the record is 0: the model's choice where the profile failed (R116, R120, R189; log entry 41). -/
def failOpenRecord (k : StreamId) (code : OpenCode) (addr : Nat) (s : State) : State :=
  signal .attention (onStream k (fun x =>
    let y := { x with state := .closed, openCode := some code }
    pushWrite (recordWrite k y addr) y) (endFetch s))

/-- An entry that fails a check (R119). -/
def failEntry (k : StreamId) (bytes : List Byte) (s : State) : State :=
  if progressUsable (entryProgress bytes) then failOpenRecord k .entryInvalid (entryProgress bytes) s
  else
    signal .attention (setFault faultTable (streamBits k)
      (onStream k (fun x => { x with state := .closed, openCode := some .entryInvalid }) (endFetch s)))

/-- ENTRY_READ_DONE (R118, R119, R187). -/
def execEntryReadDone (data : ReadResult) (s : State) : Host.Outcome State Fault Refusal :=
  match s.fetch with
  | some { stream := k, phase := .entry _ } =>
      match validData 64 data with
      | none => .next (drain (failOpenTable k s))
      | some bytes =>
          match parseEntry? bytes with
          | none => .next (drain (failEntry k bytes s))
          | some e => .next { s with fetch := some { stream := k, phase := .openProfile e } }
  | _ => .next s

/-- OPEN succeeds (R120): the fresh context, the head as the chain position, RUNNING and its record. -/
def openStream (k : StreamId) (e : ReelEntry) (p : Profile) (x : Stream) : Stream :=
  enterState k .running { x with
    ctx := some (freshContext e.config (limitProfile p) (profileClamped p))
    position := .span e.head, chain := Chain.empty, taken := [], failing := none, halt := none, skip := none
    openCode := none, progressAddr := some e.progressAddr, counters := Counters.zero, schedule := none
    staging := none, timer := none, readDue := false, pollAgain := false, flushMade := false, gaveBack := false }

/-- OPEN_PROFILE_READ_DONE (R119, R120). -/
def execOpenProfileReadDone (data : ReadResult) (s : State) : Host.Outcome State Fault Refusal :=
  match s.fetch with
  | some { stream := k, phase := .openProfile e } =>
      match validData 64 data with
      | none => .next (drain (failOpenRecord k .profileFault e.progressAddr s))
      | some bytes => .next (drain (onStream k (openStream k e (parseProfile bytes)) (endFetch s)))
  | _ => .next s

/-! ## Poll timers (R150) -/

/-- A running timer expires: the next wait read is due. -/
def expireTimer (x : Stream) : Stream :=
  match x.timer with
  | none => x
  | some _ => { x with timer := none, readDue := true }

/-- POLL_TIMER_EXPIRY (R150). -/
def execPollTimerExpiry (k : StreamId) (s : State) : Host.Outcome State Fault Refusal :=
  .next (onStream k expireTimer s)

end Sys2Proof.Machine
end

