-- ==== Sys2Proof/Machine/CommandUnit.lean ====
section
/-! DEFINITION. The command register and the commands (R117 to R129, R184, R185): the seven CMD writes and COMMAND_DISPATCH.
-/

namespace Sys2Proof.Machine

/-! ## A write to CMD (R184) -/

/-- The result a taken command shows at once (R184 steps 2 to 5). -/
def takenResult (enable : Bool) (stream : BitVec 4) (code : BitVec 3) : CmdResult :=
  if enable = false then .refusedDisabled
  else if 12 ≤ stream.toNat then .refusedStream
  else if code = 0#3 ∨ code = 7#3 then .refusedState
  else .pending

/-- A write to CMD: dropped with CMD_OVERRUN while a command is PENDING, else taken with its result (R184, R186). -/
def writeCmd (code : BitVec 3) (stream : BitVec 4) (skip : Bool) (tag : BitVec 16) (s : State) : State :=
  if s.cmd.result = .pending then setFault faultOverrun stream s
  else { s with cmd :=
    { stream := stream, code := code, skip := skip, result := takenResult s.enable stream code, tag := tag } }

/-- OPEN (R118, R184). -/
def execCmdOpen (stream : BitVec 4) (skip : Bool) (tag : BitVec 16) (s : State) :
    Host.Outcome State Fault Refusal :=
  .next (writeCmd codeOpen stream skip tag s)

/-- STOP (R122, R184). -/
def execCmdStop (stream : BitVec 4) (skip : Bool) (tag : BitVec 16) (s : State) :
    Host.Outcome State Fault Refusal :=
  .next (writeCmd codeStop stream skip tag s)

/-- ABORT (R124, R184). -/
def execCmdAbort (stream : BitVec 4) (skip : Bool) (tag : BitVec 16) (s : State) :
    Host.Outcome State Fault Refusal :=
  .next (writeCmd codeAbort stream skip tag s)

/-- RESUME (R127, R184). -/
def execCmdResume (stream : BitVec 4) (skip : Bool) (tag : BitVec 16) (s : State) :
    Host.Outcome State Fault Refusal :=
  .next (writeCmd codeResume stream skip tag s)

/-- CLOSE (R128, R184). -/
def execCmdClose (stream : BitVec 4) (skip : Bool) (tag : BitVec 16) (s : State) :
    Host.Outcome State Fault Refusal :=
  .next (writeCmd codeClose stream skip tag s)

/-- POLL (R129, R184). -/
def execCmdPoll (stream : BitVec 4) (skip : Bool) (tag : BitVec 16) (s : State) :
    Host.Outcome State Fault Refusal :=
  .next (writeCmd codePoll stream skip tag s)

/-- UNDEFINED_COMMAND (R184). -/
def execCmdUndefined (code : UndefinedCode) (stream : BitVec 4) (skip : Bool) (tag : BitVec 16) (s : State) :
    Host.Outcome State Fault Refusal :=
  .next (writeCmd (undefinedBits code) stream skip tag s)

/-! ## The judgement (R117) -/

def acceptIf (b : Bool) : CmdResult :=
  if b then .accepted else .refusedState

/-- At rest: STOPPED or HALTED. -/
def atRest (st : StreamState) : Bool :=
  match st with
  | .stopped | .halted => true
  | _ => false

/-- The table of R117, with the tag of R127. -/
def judge (code : BitVec 3) (tag : BitVec 16) (x : Stream) : CmdResult :=
  if code = codeOpen then acceptIf (x.state == .closed)
  else if code = codeStop then acceptIf (x.state == .running || x.state == .awaitLink)
  else if code = codeAbort then acceptIf (x.state == .running || x.state == .awaitLink || x.state == .stopping)
  else if code = codeResume then
    if atRest x.state then (if tag = x.tag then .accepted else .refusedTag) else .refusedState
  else if code = codeClose then acceptIf (atRest x.state)
  else if code = codePoll then acceptIf (x.state != .opening)
  else .refusedState

/-! ## Accepted commands -/

/-- OPEN accepted (R116, R118): the stream is OPENING and its open read is due. -/
def acceptOpen (k : StreamId) (s : State) : State :=
  onStream k (fun x => { x with
    state := .opening, taken := [], slot0 := none, slot1 := none, failing := none, halt := none, skip := none
    openCode := none, openDue := true }) s

/-- STOP accepted (R122): at once to STOPPED from AWAIT_LINK with nothing begun and no take in progress, else STOPPING, whose
record is handed over before the stop work begins (R123, R131; log entry 16). A skip in progress counts as a take in progress
(log entry 47). -/
def acceptStop (k : StreamId) (s : State) : State :=
  let x := s.stream k
  if x.state = .awaitLink ∧ x.taken = [] ∧ taking s k = false then
    enterStopped k (markStale k (onStream k endWait s))
  else
    settleStop k (markStale k (onStream k (fun y =>
      advanceActive (enterState k .stopping (endWait { y with flushMade := false, gaveBack := false }))) s))

/-- ABORT accepted (R124, R169). -/
def acceptAbort (k : StreamId) (s : State) : State :=
  markStale k (onStream k (fun x => enterState k .aborting (endWait { x with staging := none })) s)

/-- The next-link of the anchor a stream resumes at is read again (R127, R137; log entry 16). -/
def forgetLink (x : Stream) : Stream :=
  match x.position with
  | .anchor _ => { x with chain := { x.chain with anchor := x.chain.anchor.map fun a => { a with link := 0 } } }
  | _ => x

/-- RESUME accepted (R127). -/
def acceptResume (k : StreamId) (skip : Bool) (s : State) : State :=
  onStream k (fun x => enterState k .running (forgetLink { x with
    skip := if skip then x.failing.map (fun f => f.addr) else none
    flushMade := false, gaveBack := false })) s

/-- CLOSE accepted, but for the chain context (R128): contexts, slots and list are discarded, and its record is owed. -/
def discardStream (x : Stream) : Stream :=
  oweRecord (endWait { x with
    state := .closed, position := .none, taken := [], slot0 := none, slot1 := none, halt := none, skip := none
    ctx := none, schedule := none, staging := none })

/-- A wait read of the stream is in progress. -/
def waitReading (s : State) (k : StreamId) : Bool :=
  match s.fetch with
  | some { stream := j, phase := .wait _ _ _ _ } => decide (j = k)
  | _ => false

/-- CLOSE accepted (R128). Its work on the chain context waits for a wait read in progress (R143, R173; log entry 19). -/
def acceptClose (k : StreamId) (s : State) : State :=
  let s1 := signal .stopped (markStale k (onStream k discardStream s))
  if waitReading s k then s1 else onStream k (closeChain k) s1

/-- POLL accepted (R129, R150). -/
def acceptPoll (k : StreamId) (s : State) : State :=
  if (s.stream k).state = .awaitLink then
    if waitReading s k then onStream k (fun x => { x with pollAgain := true }) s
    else onStream k (fun x => { x with timer := none, readDue := true }) s
  else s

/-- What an accepted command does (R118 to R129). -/
def perform (c : CmdReg) (k : StreamId) (s : State) : State :=
  if c.code = codeOpen then acceptOpen k s
  else if c.code = codeStop then acceptStop k s
  else if c.code = codeAbort then acceptAbort k s
  else if c.code = codeResume then acceptResume k c.skip s
  else if c.code = codeClose then acceptClose k s
  else if c.code = codePoll then acceptPoll k s
  else s

/-- The judgement and effect of a PENDING command for stream `k` (R117, R185). -/
def dispatchTo (k : StreamId) (s : State) : State :=
  let r := judge s.cmd.code s.cmd.tag (s.stream k)
  let s1 := { s with cmd := { s.cmd with result := r } }
  if r = .accepted then drain (perform s.cmd k s1) else s1

/-- A transition of the stream is in progress (R185): it owes a progress record (log entry 18), or its rollback has begun. -/
def inTransition (s : State) (k : StreamId) : Bool :=
  !(s.stream k).owed.isEmpty || rollingBack s k

/-- The stream that the PENDING command names, when it has no transition in progress (R185). -/
def dispatchStream (s : State) : Option StreamId :=
  if s.cmd.result = .pending then
    match streamOf? s.cmd.stream with
    | none => none
    | some k => if inTransition s k then none else some k
  else none

/-- COMMAND_DISPATCH (R185). -/
def execCommandDispatch (s : State) : Host.Outcome State Fault Refusal :=
  match dispatchStream s with
  | none => .next s
  | some k => .next (dispatchTo k s)

end Sys2Proof.Machine
end

