-- ==== Sys2Proof/Machine/Registers.lean ====
section
/-! DEFINITION. The register writes, device reset and message signalling (R180 to R183, R186, R191, R192). -/

namespace Sys2Proof.Machine

/-- ENABLE: the arbiters read the bit at their next grant (R180, R182). -/
def execEnable (on : Bool) (s : State) : Host.Outcome State Fault Refusal :=
  .next { s with enable := on }

/-- A device reset (R181, R183): everything takes its reset value. What the host has set of message signalling, the
messages already sent and the commands that wait are not the part's to reset (log entries 2, 3, 7). -/
def resetDevice (s : State) : State :=
  { State.reset with
    msgEnabled := s.msgEnabled, msgVectors := s.msgVectors, messages := s.messages, pending := s.pending }

/-- DEVICE_RESET, whatever its cause and whatever ENABLE bit a DEVCTL write carries (R182, R183). -/
def execDeviceReset (cause : ResetCause) (s : State) : Host.Outcome State Fault Refusal :=
  match cause with
  | .powerOn | .functionLevelReset | .devctlWrite _ => .next (resetDevice s)

/-- DEVSTAT_CLEAR (R186). -/
def execDevstatClear (value : Word32) (s : State) : Host.Outcome State Fault Refusal :=
  .next (clearFaults value s)

/-- EVLATCH_CLEAR (R191). -/
def execEvlatchClear (value : Word32) (s : State) : Host.Outcome State Fault Refusal :=
  .next (clearLatches value s)

/-- EVMAP_WRITE (R192). -/
def execEvmapWrite (value : Word32) (s : State) : Host.Outcome State Fault Refusal :=
  .next (writeEvmap value s)

/-- MESSAGE_SIGNALLING_CHANGE (R192). -/
def execMessageSignallingChange (enabled : Bool) (vectors : VectorCount) (s : State) :
    Host.Outcome State Fault Refusal :=
  .next (setSignalling enabled vectors s)

/-- A write to POLLIV holds bits 15 to 0, and 0 is held as 1 (R182). -/
def heldPolliv (value : Word32) : BitVec 16 :=
  if value.setWidth 16 = 0#16 then 1#16 else value.setWidth 16

/-- A write to TBASE_LO holds bits 31 to 6 (R182). -/
def heldTableLow (value : Word32) : Word32 :=
  value &&& 0xFFFFFFC0#32

/-- A full write of one register, by offset (R182). The registers with commands of their own act as those commands. -/
def writeRegister (offset : BitVec 6) (value : Word32) (s : State) : State :=
  match offset.toNat with
  | 0x04 => if value.getLsbD 1 then resetDevice s else { s with enable := value.getLsbD 0 }
  | 0x08 => clearFaults value s
  | 0x0C => { s with polliv := heldPolliv value }
  | 0x10 => { s with tbaseLo := heldTableLow value }
  | 0x14 => { s with tbaseHi := value }
  | 0x18 => writeCmd ((value >>> 4).setWidth 3) (value.setWidth 4) (value.getLsbD 7) ((value >>> 16).setWidth 16) s
  | 0x1C => clearLatches value s
  | 0x20 => writeEvmap value s
  | _ => s

/-- REGISTER_WRITE (R182): a write that does not cover the four bytes of a register is ignored, as is one to ID or to offsets
0x24 to 0x3F. -/
def execRegisterWrite (offset : BitVec 6) (size : Nat) (value : Word32) (s : State) :
    Host.Outcome State Fault Refusal :=
  if size = 4 ∧ offset.toNat % 4 = 0 then .next (writeRegister offset value s) else .next s

end Sys2Proof.Machine
end

