-- ==== Sys2Proof/Machine/Rollback.lean ====
section
/-! DEFINITION. ROLLBACK (R137, R164). -/

namespace Sys2Proof.Machine

/-- The writes of a rollback that has begun are due: every write queued before has been reported (R137). -/
def rollbackDue (k : StreamId) (s : State) : Bool :=
  rollingBack s k && (s.stream k).queue.isEmpty && (issuedOf s k).isEmpty

/-- The oldest begun and unfinished span (R135). -/
def restartSpan (x : Stream) : Option Taken :=
  x.taken.find? hasBegun

/-- The restart checkpoint (R135). -/
def restartCheckpoint (x : Stream) : Option Checkpoint :=
  match restartSpan x with
  | none => none
  | some t =>
      match t.slot with
      | none => none
      | some false => x.slot0
      | some true => x.slot1

/-- The tallies of a span in the list, from the list when they have left the data path, else from the live context (R164).
A span that has not begun has none, and its report is settled by the model (log entry 40). -/
def spanTally (x : Stream) (t : Taken) : Option Tally :=
  match t.final with
  | some f => some f
  | none =>
      match t.start, x.ctx with
      | some start, some ctx => ctx.tallies.find? fun u => decide (u.start = start)
      | _, _ => none

/-- The threshold in force in the live context, in sample units (R164). -/
def liveThreshold (x : Stream) : Nat :=
  match x.ctx with
  | none => 0
  | some ctx => (ctx.hiss.th / 256).toNat

/-- The report of a span that failed at its take: every count 0, an empty mask and both signatures 0 (R164). -/
def unbegunReport (h : Halt) : List Byte :=
  reportBytes h.code h.echo (freshTally 0 0 0) 0#3 0

/-- The report of the failing span of the list (R164). One that never began, its POSTED word failed at a STOP (R178), has the
report of a span that failed at its take, with its own sequence echo: the model's choice (log entry 40). -/
def failingReport (x : Stream) (h : Halt) (t : Taken) : List Byte :=
  match spanTally x t with
  | none => unbegunReport h
  | some y => reportBytes h.code h.echo y (liveMask x) (liveThreshold x)

/-- The writes of one span of the list: POSTED, or its report and FAILED when it is the failing span (R137 step 2). -/
def spanWrites (x : Stream) (t : Taken) : List Write :=
  match x.halt with
  | none => [stateWrite t.addr wordPosted .rollback]
  | some h =>
      if h.tid = some t.tid then
        [reportWrite t.addr (failingReport x h t) .rollback, stateWrite t.addr wordFailed .rollback]
      else [stateWrite t.addr wordPosted .rollback]

/-- The failing span when it is not in the list: it failed at its take or its skip (R137). -/
def takeFailure (x : Stream) : Option Halt :=
  match x.halt with
  | none => none
  | some h => if h.tid.isNone then some h else none

/-- The writes of a rollback, in order (R137 step 2, R176). -/
def rollbackWrites (x : Stream) : List Write :=
  x.taken.flatMap (spanWrites x) ++
    match takeFailure x with
    | none => []
    | some h => [reportWrite h.addr (unbegunReport h) .rollback, stateWrite h.addr wordFailed .rollback]

/-- The oldest span given back or written FAILED, with the expectation at its take (R137 step 3). A take is tried only when
every span of the list has begun, so a failing span at take stands after the begun ones. -/
def oldestBack (x : Stream) : Option (Nat × Option Seq) :=
  match restartSpan x with
  | some t => some (t.addr, t.expBefore)
  | none =>
      match takeFailure x with
      | some h => some (h.addr, h.expBefore)
      | none => x.taken.head?.map fun t => (t.addr, t.expBefore)

/-- A FINISHED anchor is kept, any other is dropped (R137, R140). -/
def keptAnchor (c : Chain) : Option Anchor :=
  match c.anchor with
  | none => none
  | some a => if a.finished then some a else none

/-- Steps 1 to 4 of R137. -/
def rollBack (x : Stream) : Stream :=
  let x1 : Stream := { x with queue := x.queue ++ rollbackWrites x }
  let x2 : Stream := { x1 with
    ctx := match restartCheckpoint x with | none => x.ctx | some c => some c.ctx
    slot0 := none, slot1 := none, taken := [], schedule := none, staging := none, halt := none
    chain := { x.chain with anchor := keptAnchor x.chain, wait := .none } }
  match oldestBack x with
  | none => x2
  | some (addr, expected) => { x2 with position := .span addr, chain := { x2.chain with expected := expected } }

/-- ROLLBACK of a stream (R137): STOPPED from ABORTING, HALTED from HALTING. Nothing happens before it is due (log entry
5). -/
def execRollback (k : StreamId) (s : State) : Host.Outcome State Fault Refusal :=
  if rollbackDue k s = true then
    let s1 := onStream k rollBack s
    if (s.stream k).state = .aborting then .next (drain (enterStopped k s1)) else .next (drain (enterHalted k s1))
  else .next s

end Sys2Proof.Machine
end

