-- ==== Sys2Proof/Machine/WriteBack.lean ====
section
/-! DEFINITION. WRITE_DONE: what follows each write of the Write-back Unit, done or failed (R147, R151, R152, R154, R178,
R188). -/

namespace Sys2Proof.Machine

/-! ## Progress counters (R188) -/

/-- A RELEASED write for a span of the stream has been reported done. -/
def countReleased (addr : Nat) (sequence : Seq) (c : Counters) : Counters :=
  { c with lastAddr := addr, lastSeq := sequence, released := c.released + 1 }

/-- A finish write has been reported done. -/
def countSamples (n : Nat) (c : Counters) : Counters :=
  { c with samples := c.samples + BitVec.ofNat 64 n }

/-! ## Finishing (R151, R196) -/

/-- The checkpoint slot of a finished span is freed (R136). -/
def freeSlot (slot : Option Bool) (x : Stream) : Stream :=
  match slot with
  | none => x
  | some false => { x with slot0 := none }
  | some true => { x with slot1 := none }

/-- A span of the list after `tid` has been taken and not given back. -/
def takenBeyond (x : Stream) (tid : Nat) : Bool :=
  ((x.taken.dropWhile fun t => !decide (t.tid = tid)).drop 1).any fun u => !u.givingBack

/-- The stream follows its chain and its chain position is the span, whose next-link it has not followed. -/
def looksBeyond (t : Taken) (x : Stream) : Bool :=
  follows x.state && decide (x.position = .anchor t.addr)

/-- The chain after a span's RELEASED finish (R195, R196): its bypass entry is dropped, and with no span taken beyond it the
chain position becomes the entry's recorded next-link, where the skip left the expectation. A stream that has not followed the
span's own next-link then waits on the state word there: a link wait goes on with its timer or due read, and a stream that had
not begun to wait has its first read due (log entry 42). -/
def chainAfterReleased (t : Taken) (x : Stream) : Stream :=
  match bypassOf x.chain t.addr with
  | none => x
  | some b =>
      if takenBeyond x t.tid then { x with chain := dropBypass t.addr x.chain }
      else
        { x with
          position := .span b.link
          readDue := x.readDue || looksBeyond t x && decide (x.chain.wait = .none)
          chain := { dropBypass t.addr x.chain with
            anchor := none
            expected := some (b.sequence + 1)
            wait := if looksBeyond t x then .state else x.chain.wait } }

/-- The next-link that the anchor of a FINISHED span has: the anchor's own when it is that span, else the snapshot's. -/
def finishedLink (t : Taken) (x : Stream) : Nat :=
  match x.chain.anchor with
  | none => t.header.link
  | some a => if a.addr = t.addr then a.link else t.header.link

/-- The chain after a span's FINISHED finish: the span stays as the anchor (R151). -/
def chainAfterFinished (t : Taken) (x : Stream) : Stream :=
  let a : Anchor := { addr := t.addr, sequence := t.header.sequence, link := finishedLink t x, finished := true }
  { x with chain := { x.chain with anchor := some a } }

/-- A span finishes (R136, R151, R188): it leaves the list, its slot is freed, the counters take it, and its progress record
follows. -/
def finishStream (k : StreamId) (t : Taken) (released : Bool) (x : Stream) : Stream :=
  let x1 := if released then chainAfterReleased t x else chainAfterFinished t x
  let x2 := freeSlot t.slot { x1 with
    taken := x1.taken.filter fun u => !decide (u.tid = t.tid)
    counters := countSamples t.header.count
      (if released then countReleased t.addr t.header.sequence x1.counters else x1.counters) }
  handRecord k x2

def notifyIf (b : Bool) (s : State) : State :=
  if b then signal .spanNotify s else s

/-- The finish write of a span has been reported done (R151). Where it also completes a stop, the record of the finish comes first
and shows STOPPING (R190; log entry 48). -/
def finishDone (k : StreamId) (tid : Nat) (released : Bool) (s : State) : State :=
  match findTaken (s.stream k) tid with
  | none => s
  | some t => settleStop k (notifyIf t.header.notify (onStream k (finishStream k t released) s))

/-! ## Taking (R147, R152) -/

/-- The anchor that reads FINISHED. -/
def finishedAnchor (c : Chain) : Option Anchor :=
  match c.anchor with
  | none => none
  | some a => if a.finished then some a else none

/-- A span is taken (R147): it joins the list, becomes the anchor and sets the expectation; a FINISHED anchor before it is
released, and the record of an entry to RUNNING waits for that release (R152, R176, R190). -/
def takeStream (k : StreamId) (addr : Nat) (h : Header) (marks : List Mark) (profile : Option Profile) (x : Stream) :
    Stream :=
  let entered := x.state == .awaitLink
  let t : Taken :=
    { tid := x.takes, addr := addr, header := h, marks := marks, profile := profile, expBefore := x.chain.expected
      start := none, slot := none, staged := 0, processed := 0, final := none, givingBack := false }
  let x1 := endWait { x with
    taken := x.taken ++ [t], takes := x.takes + 1, position := .anchor addr
    state := if entered then .running else x.state
    chain := { x.chain with
      anchor := some { addr := addr, sequence := h.sequence, link := h.link, finished := false }
      expected := some (h.sequence + 1) } }
  match finishedAnchor x.chain with
    | some a =>
        pushWrite (stateWrite a.addr wordReleased (.anchorRelease .take a.sequence))
          (if entered then oweRecord x1 else x1)
    | none => if entered then handRecord k x1 else x1

/-- The ACTIVE write has been reported done (R147). A span taken in STOPPING is given back (R122, R123 step 4). -/
def activeDone (k : StreamId) (s : State) : State :=
  match s.fetch with
  | some { stream := j, phase := .active addr h marks profile } =>
      if j = k then settleStop k (onStream k (takeStream k addr h marks profile) (endFetch s)) else s
  | _ => s

/-- After an anchor's release, done or failed (R128, R152, R190): the counters take it, the records that waited for it are
handed over, and then the record of the release itself, when it is made at a take and was done (log entry 35). The records of a
skip and of CLOSE are among those that waited. -/
def releaseStream (k : StreamId) (why : ReleaseWhy) (addr : Nat) (sequence : Seq) (ok : Bool) (x : Stream) : Stream :=
  let x1 := handOwed k { x with
    counters := if ok then countReleased addr sequence x.counters else x.counters
    chain := if ok then dropBypass addr x.chain else x.chain }
  match why with
  | .take => if ok then handRecord k x1 else x1
  | .skip => x1
  | .close => { x1 with progressAddr := none }

/-! ## Skipping (R154, R195) -/

/-- The bypass entry of a skip (R195). Where the preceding span has one already, that entry is moved on to the newly skipped
span's sequence and next-link (log entry 15). The list has no bound of its own (log entry 45). -/
def recordBypass (skipped : Nat) (h : Header) (preceding : Nat) (c : Chain) : Chain :=
  match bypassOf c preceding with
  | none =>
      { c with bypass := c.bypass ++
        [{ skipped := skipped, sequence := h.sequence, link := h.link, preceding := preceding }] }
  | some _ =>
      { c with bypass := c.bypass.map fun b =>
        if b.preceding = preceding then { b with sequence := h.sequence, link := h.link } else b }

/-- The chain after a skip (R152, R154, R195). The skipped span has been written RELEASED, so an entry that it precedes is
dropped. -/
def chainAfterSkip (skipped : Nat) (h : Header) (c : Chain) : Chain :=
  let c1 := { dropBypass skipped c with expected := some (h.sequence + 1) }
  match c.anchor with
  | none => c1
  | some a => if a.finished then { c1 with anchor := none } else recordBypass skipped h a.addr c1

/-- The skipped span's RELEASED write has been reported done (R154): the record follows it and any anchor release. -/
def skipStream (k : StreamId) (skipped : Nat) (h : Header) (x : Stream) : Stream :=
  let x1 := { x with
    skip := none, position := .span h.link, counters := countReleased skipped h.sequence x.counters
    chain := chainAfterSkip skipped h x.chain }
  match finishedAnchor x.chain with
  | some a => pushWrite (stateWrite a.addr wordReleased (.anchorRelease .skip a.sequence)) (oweRecord x1)
  | none => handRecord k x1

/-- The skip is done, and a take begins at the skipped span's next-link while the stream follows its chain (R154). -/
def skipDone (k : StreamId) (s : State) : State :=
  match s.fetch with
  | some { stream := j, phase := .skip addr h } =>
      if j = k then
        let s1 := notifyIf h.notify (onStream k (skipStream k addr h) (endFetch s))
        if follows (s.stream k).state then beginTake k h.link s1 else settleStop k s1
      else s
  | _ => s

/-- A write of a skip failed (R154): the span fails with STATE_FAULT and nothing more of the skip is written. -/
def skipFailed (k : StreamId) (s : State) : State :=
  match s.fetch with
  | some { stream := j, phase := .skip addr h } =>
      if j = k then
        failTake k addr h.sequence .stateFault
          (onStream k (fun x => { x with queue := x.queue.filter fun w => !decide (w.tag = .skipReleased) }) s)
      else s
  | _ => s

/-- The ACTIVE write failed (R147). -/
def activeFailed (k : StreamId) (s : State) : State :=
  match s.fetch with
  | some { stream := j, phase := .active addr h _ _ } =>
      if j = k then failTake k addr h.sequence .stateFault s else s
  | _ => s

/-! ## Giving back (R123) -/

/-- A POSTED write of a stop has been reported done: the span has been given back. -/
def giveBackDone (k : StreamId) (tid : Nat) (s : State) : State :=
  settleStop k (onStream k (fun x => { x with taken := x.taken.filter fun t => !decide (t.tid = tid) }) s)

/-! ## The report of a write -/

/-- A write has been reported done. -/
def onDone (k : StreamId) (w : Write) (s : State) : State :=
  match w.tag with
  | .container _ | .logEntry _ | .report _ | .skipCode | .rollback | .progress => s
  | .finish tid released => finishDone k tid released s
  | .active => activeDone k s
  | .giveBack tid => giveBackDone k tid s
  | .anchorRelease why sequence => onStream k (releaseStream k why w.addr sequence true) s
  | .skipReleased => skipDone k s

/-- STATE_FAULT of a stream (R186). -/
def stateFault (k : StreamId) (s : State) : State :=
  setFault faultState (streamBits k) s

/-- A write has been reported failed (R178). -/
def onFailed (k : StreamId) (w : Write) (s : State) : State :=
  match w.tag with
  | .container tid | .logEntry tid => failTaken k tid .outputFault s
  | .report tid => failTaken k tid .stateFault (stateFault k s)
  | .finish tid _ => failTaken k tid .stateFault (stateFault k s)
  | .active => activeFailed k (stateFault k s)
  | .giveBack tid => failTaken k tid .stateFault (stateFault k s)
  | .anchorRelease why sequence => onStream k (releaseStream k why w.addr sequence false) (stateFault k s)
  | .skipCode | .skipReleased => skipFailed k (stateFault k s)
  | .rollback => stateFault k s
  | .progress => setFault faultProgress (streamBits k) s

/-- WRITE_DONE (R175, R178): the issued write at `index` is reported, what follows it happens, and the next writes are
issued. -/
def execWriteDone (index : Nat) (ok : Bool) (s : State) : Host.Outcome State Fault Refusal :=
  match s.issued[index]? with
  | none => .next s
  | some i =>
      let s1 := { s with issued := s.issued.eraseIdx index }
      .next (drain (if ok then onDone i.stream i.write s1 else onFailed i.stream i.write s1))

end Sys2Proof.Machine
end

