-- ==== Sys2Proof/Machine/Dispatch.lean ====
section
/-! DEFINITION. exec: one arm per command. -/

namespace Sys2Proof.Machine

def exec (i : Instr) (s : State) : Host.Outcome State Fault Refusal :=
  match i with
  | .cmdOpen stream skip tag => Sys2Proof.Machine.execCmdOpen stream skip tag s
  | .cmdStop stream skip tag => Sys2Proof.Machine.execCmdStop stream skip tag s
  | .cmdAbort stream skip tag => Sys2Proof.Machine.execCmdAbort stream skip tag s
  | .cmdResume stream skip tag => Sys2Proof.Machine.execCmdResume stream skip tag s
  | .cmdClose stream skip tag => Sys2Proof.Machine.execCmdClose stream skip tag s
  | .cmdPoll stream skip tag => Sys2Proof.Machine.execCmdPoll stream skip tag s
  | .cmdUndefined code stream skip tag => Sys2Proof.Machine.execCmdUndefined code stream skip tag s
  | .commandDispatch => Sys2Proof.Machine.execCommandDispatch s
  | .enable on => Sys2Proof.Machine.execEnable on s
  | .deviceReset cause => Sys2Proof.Machine.execDeviceReset cause s
  | .devstatClear value => Sys2Proof.Machine.execDevstatClear value s
  | .evlatchClear value => Sys2Proof.Machine.execEvlatchClear value s
  | .evmapWrite value => Sys2Proof.Machine.execEvmapWrite value s
  | .registerWrite offset size value => Sys2Proof.Machine.execRegisterWrite offset size value s
  | .messageSignallingChange enabled vectors => Sys2Proof.Machine.execMessageSignallingChange enabled vectors s
  | .fetchGrant => Sys2Proof.Machine.execFetchGrant s
  | .laneReadDone lanes => Sys2Proof.Machine.execLaneReadDone lanes s
  | .headerReadDone data => Sys2Proof.Machine.execHeaderReadDone data s
  | .marksReadDone data => Sys2Proof.Machine.execMarksReadDone data s
  | .takeProfileReadDone data => Sys2Proof.Machine.execTakeProfileReadDone data s
  | .waitReadDone data => Sys2Proof.Machine.execWaitReadDone data s
  | .entryReadDone data => Sys2Proof.Machine.execEntryReadDone data s
  | .openProfileReadDone data => Sys2Proof.Machine.execOpenProfileReadDone data s
  | .pollTimerExpiry stream => Sys2Proof.Machine.execPollTimerExpiry stream s
  | .engineGrant => Sys2Proof.Machine.execEngineGrant s
  | .blockEnd => Sys2Proof.Machine.execBlockEnd s
  | .rollback stream => Sys2Proof.Machine.execRollback stream s
  | .writeDone index ok => Sys2Proof.Machine.execWriteDone index ok s

end Sys2Proof.Machine
end

