-- ==== Sys2Proof/WellFormed.lean ====
section
/-! DEFINITION. Which commands the part's surroundings can send: the sizes of register writes and of read results. -/

namespace Sys2Proof

/-- A full write of one of these offsets has a row of its own in the table: DEVCTL, DEVSTAT, CMD, EVLATCH, EVMAP. -/
def hasOwnRow (offset : BitVec 6) : Bool :=
  offset == 0x04#6 || offset == 0x08#6 || offset == 0x18#6 || offset == 0x1C#6 || offset == 0x20#6

/-- A read result that was not failed holds exactly `n` bytes. -/
def resultHas (n : Nat) : ReadResult → Bool
  | none => true
  | some bytes => bytes.length == n

/-- The checks: a register write covers 1 to 4 bytes and is no full write of a register with a row of its own (R182); a
lane report names one lane or three (R1), of at most 1,024 containers of 4 bytes each (R168, R2); a header has 128 bytes
(R144); a marks list at most 512 entries of 8 (R23); a profile and an entry 64 (R187, 10.8); a wait read 4, 8 or 128
(10.8). -/
def Instr.wellFormed : Instr → Bool
  | .registerWrite offset size _ => 1 ≤ size && size ≤ 4 && !(size == 4 && hasOwnRow offset)
  | .laneReadDone lanes =>
      (lanes.length == 1 || lanes.length == 3) &&
        lanes.all fun r => match r with
          | none => true
          | some bytes => bytes.length ≤ 4096
  | .headerReadDone data => resultHas 128 data
  | .marksReadDone data =>
      match data with
      | none => true
      | some bytes => bytes.length ≤ 4096 && bytes.length % 8 == 0
  | .takeProfileReadDone data => resultHas 64 data
  | .waitReadDone data => resultHas 4 data || resultHas 8 data || resultHas 128 data
  | .entryReadDone data => resultHas 64 data
  | .openProfileReadDone data => resultHas 64 data
  | .cmdOpen .. | .cmdStop .. | .cmdAbort .. | .cmdResume .. | .cmdClose .. | .cmdPoll .. | .cmdUndefined ..
  | .commandDispatch | .enable _ | .deviceReset _ | .devstatClear _ | .evlatchClear _ | .evmapWrite _
  | .messageSignallingChange .. | .fetchGrant | .pollTimerExpiry _ | .engineGrant | .blockEnd | .rollback _
  | .writeDone .. => true

end Sys2Proof
end

