-- ==== Sys2Proof/Safety.lean ====
section
/-! DEFINITION. What statements about runs are stated in: frames, and the invariants of the part. -/

namespace Sys2Proof.Machine

/-! ## Frames -/

/-- The control registers are the same. -/
structure SameControl (s t : State) : Prop where
  enable : t.enable = s.enable
  polliv : t.polliv = s.polliv
  tbaseLo : t.tbaseLo = s.tbaseLo
  tbaseHi : t.tbaseHi = s.tbaseHi

/-- DEVSTAT is the same. -/
structure SameStatus (s t : State) : Prop where
  faults : t.faults = s.faults
  lastFault : t.lastFault = s.lastFault

/-- What the host has set of events is the same. -/
structure SameEventSetup (s t : State) : Prop where
  evmap : t.evmap = s.evmap
  msgEnabled : t.msgEnabled = s.msgEnabled
  msgVectors : t.msgVectors = s.msgVectors

/-- The latches, INTx and the messages are the same. -/
structure SameEvents (s t : State) : Prop where
  evlatch : t.evlatch = s.evlatch
  intx : t.intx = s.intx
  messages : t.messages = s.messages

/-- The arbiters, the engine, the fetch transaction and the writes under way are the same. -/
structure SameScheduling (s t : State) : Prop where
  engineLast : t.engineLast = s.engineLast
  engine : t.engine = s.engine
  fetchLast : t.fetchLast = s.fetchLast
  fetch : t.fetch = s.fetch
  writeLast : t.writeLast = s.writeLast
  issued : t.issued = s.issued

/-- A stream's record but for its write queue. -/
def Stream.apart (x : Stream) : Stream :=
  { x with queue := [] }

/-- What a stream holds apart from its state, its chain and its queues is the same: the signal context, the mark schedule, the
checkpoint slots, the progress counters and address, and the open failure code. -/
structure SameHoldings (x y : Stream) : Prop where
  ctx : y.ctx = x.ctx
  schedule : y.schedule = x.schedule
  slot0 : y.slot0 = x.slot0
  slot1 : y.slot1 = x.slot1
  counters : y.counters = x.counters
  progressAddr : y.progressAddr = x.progressAddr
  openCode : y.openCode = x.openCode

/-- Every stream but `k` keeps its record, and its write queue but for writes that have left it from the front. -/
def OthersKept (k : StreamId) (s t : State) : Prop :=
  ∀ j, j ≠ k → (t.stream j).apart = (s.stream j).apart ∧ (t.stream j).queue <:+ (s.stream j).queue

/-- Everything but the streams, the writes under way, the CMD register and the fetch transaction is the same. -/
structure SameAround (s t : State) : Prop where
  control : SameControl s t
  setup : SameEventSetup s t
  engineLast : t.engineLast = s.engineLast
  engine : t.engine = s.engine
  pending : t.pending = s.pending

/-- A transition of stream `k` is in progress (R185): it owes the record of one, or its rollback has begun, the stream ABORTING or
HALTING with no block and no fetch of it in progress (R137, R173). -/
abbrev InTransition (s : State) (k : StreamId) : Prop :=
  (s.stream k).owed ≠ [] ∨
    (((s.stream k).state = .aborting ∨ (s.stream k).state = .halting) ∧ serving s k = false ∧ fetching s k = false)

/-- A PENDING command of this code for stream `k`, which has no transition in progress, can be judged (R185). -/
def Dispatches (s : State) (k : StreamId) (code : BitVec 3) : Prop :=
  s.cmd.result = .pending ∧ s.cmd.stream.toNat = k.val ∧ s.cmd.code = code ∧ ¬ InTransition s k

/-- The state with its PENDING command shown as judged (R117). -/
def State.judged (s : State) (r : CmdResult) : State :=
  { s with cmd := { s.cmd with result := r } }

/-- A failure of a take is recorded (R125, R126): the stream is RUNNING, AWAIT_LINK or STOPPING. -/
def recordsFailure (st : StreamState) : Bool :=
  match st with
  | .running | .awaitLink | .stopping => true
  | _ => false

/-- The halt of a span that fails at its take or its skip (R125, R137, R164): it is in no list, the echo is the sequence of its
header as read, and the expectation is that of its tried take. -/
def takeHalt (addr : Nat) (code : Completion) (echo : Seq) (x : Stream) : Halt :=
  { addr := addr, code := code, tid := none, echo := echo, expBefore := x.chain.expected }

/-- The halt of a span of the list (R125, R137, R164): the echo and the expectation are those of its take. -/
def listHalt (u : Taken) (code : Completion) : Halt :=
  { addr := u.addr, code := code, tid := some u.tid, echo := u.header.sequence, expBefore := u.expBefore }

/-- A stream after a failure of a span has been recorded (R125): HALTING, the failing-span record set and what the rollback will
write of the span, the skip request absent, no wait and an empty staging store. The rest is as it was but for the write queue. -/
def HaltsWith (h : Halt) (x y : Stream) : Prop :=
  y.state = .halting ∧ y.failing = some { addr := h.addr, code := h.code } ∧ y.halt = some h ∧ y.skip = none ∧ y.timer = none ∧
    y.readDue = false ∧ y.chain.wait = .none ∧ y.staging = none ∧ y.tag = x.tag ∧ y.taken = x.taken ∧ y.ctx = x.ctx ∧
    y.slot0 = x.slot0 ∧ y.slot1 = x.slot1 ∧ y.counters = x.counters ∧ y.position = x.position ∧
    y.chain.anchor = x.chain.anchor ∧ y.chain.expected = x.chain.expected ∧ y.chain.bypass = x.chain.bypass ∧
    y.schedule = x.schedule ∧ y.takes = x.takes

/-- What STOP, ABORT and CLOSE do to the fetch transaction in progress (R173; log entry 17): it goes on, of this or another stream,
and a wait read of the stream is marked to start nothing further. -/
def FetchStays (k : StreamId) (s t : State) : Prop :=
  (∀ target a whole stale, s.fetch = some { stream := k, phase := .wait target a whole stale } →
    t.fetch = some { stream := k, phase := .wait target a whole true }) ∧
  ((∀ target a whole stale, s.fetch ≠ some { stream := k, phase := .wait target a whole stale }) → t.fetch = s.fetch)

/-- The spans of a list once a stop has given back what has not begun (R123 step 4). -/
def allGivenBack (ts : List Taken) : List Taken :=
  ts.map fun u => if u.start = none then { u with givingBack := true } else u

/-- A write of a stream is queued, or issued and not yet reported. -/
def UnderWay (s : State) (k : StreamId) (w : Write) : Prop :=
  w ∈ (s.stream k).queue ∨ { stream := k, write := w } ∈ s.issued

/-- Where the ACTIVE word of a take enters a write queue (R147; log entry 9): between `ahead` and `behind`, at the end or, in
STOPPING, before the first state word of the newest begun span. -/
def ActivePlace (x : Stream) (ahead behind : List Write) : Prop :=
  x.queue = ahead ++ behind ∧ (x.state ≠ .stopping → behind = []) ∧
    (x.state = .stopping → (∀ w ∈ ahead, newestFinish x w = false) ∧
      (behind = [] ∨ ∃ w ws, behind = w :: ws ∧ newestFinish x w = true))

/-- What follows when a fetch transaction of stream `k` ends and starts nothing further (R123, R173; log entries 16 and 17). In
STOPPING with no block in progress the stop work is done: with no span left the stream enters STOPPED, at a FINISHED anchor when
the stop gave nothing back, with its tag raised, its record and its event; else the spans not begun are given back. In every other
case the stream is as it was but for its write queue. -/
def StopWorkFollows (k : StreamId) (s t : State) : Prop :=
  let x := s.stream k
  let y := t.stream k
  (x.state = .stopping → serving s k = false → x.taken = [] →
    y.state = .stopped ∧ y.tag = x.tag + 1 ∧ y.taken = [] ∧ y.chain = x.chain ∧ SameHoldings x y ∧
      latched t.evlatch .stopped = true ∧ SameEvents (signal .stopped s) t ∧
      (∀ c, x.gaveBack = false → x.chain.anchor = some c → c.finished = true → y.position = .anchor c.addr) ∧
      (x.gaveBack = true ∨ (∀ c, x.chain.anchor = some c → c.finished = false) → y.position = x.position) ∧
      ∀ p, x.progressAddr = some p → x.owed = [] → UnderWay t k (recordWrite k y p)) ∧
  (x.state = .stopping → serving s k = false → x.taken ≠ [] →
    y.apart = (giveBackUnbegun x).apart ∧ y.state = .stopping ∧ y.taken = allGivenBack x.taken ∧ SameEvents s t ∧
      ∀ u ∈ x.taken, u.start = none → u.givingBack = false →
        UnderWay t k { addr := u.addr, bytes := [1#8, 0#8, 0#8, 0#8], tag := .giveBack u.tid }) ∧
  (x.state ≠ .stopping ∨ serving s k = true → y.apart = x.apart ∧ SameEvents s t)

/-- What a skip of the span at `a` with header `h` leaves when it is done, whatever the stream goes on to (R152, R154, R188, R190,
R195): the skip request absent, the released counters, the bypass entries, the release of a FINISHED anchor, the record of the skip
where no such release is awaited, and the event of a NOTIFY flag. -/
def SkipRecorded (k : StreamId) (a : Nat) (h : Header) (s t : State) : Prop :=
  let x := s.stream k
  let y := t.stream k
  y.skip = none ∧
  y.counters =
    { x.counters with lastAddr := a, lastSeq := h.sequence, released := x.counters.released + 1 } ∧
  (∀ rest : List Bypass, rest = (x.chain.bypass.filter fun b => !decide (b.preceding = a)) →
    ((∀ c, x.chain.anchor = some c → c.finished = true) → y.chain.bypass = rest) ∧
    ∀ c, x.chain.anchor = some c → c.finished = false →
      ((∀ b ∈ rest, b.preceding ≠ c.addr) → y.chain.bypass = rest ++
        [{ skipped := a, sequence := h.sequence, link := h.link, preceding := c.addr }]) ∧
      ((∃ b ∈ rest, b.preceding = c.addr) → y.chain.bypass = rest.map fun b =>
        if b.preceding = c.addr then { b with sequence := h.sequence, link := h.link } else b)) ∧
  (∀ c, x.chain.anchor = some c → c.finished = true → y.chain.anchor = none ∧
    UnderWay t k { addr := c.addr, bytes := [4#8, 0#8, 0#8, 0#8], tag := .anchorRelease .skip c.sequence }) ∧
  (∀ p, x.progressAddr = some p → x.owed = [] → (∀ c, x.chain.anchor = some c → c.finished = false) →
    UnderWay t k (recordWrite k { x with position := .span h.link, counters := y.counters } p)) ∧
  (h.notify = true → latched t.evlatch .spanNotify = true) ∧ y.slot0 = x.slot0 ∧ y.slot1 = x.slot1 ∧ y.ctx = x.ctx ∧
  y.schedule = x.schedule ∧ y.takes = x.takes ∧ OthersKept k s t ∧ SameStatus s t ∧ SameAround s t ∧ t.cmd = s.cmd

/-- A lane read of a block of `n` samples failed, or ended with the block's containers and nothing else (R2, R6). -/
def LaneFits (cfg : StreamConfig) (n : Nat) (r : ReadResult) : Prop :=
  ∀ bytes : List Byte, r = some bytes → bytes.length = n * (match cfg.laneFormat with | .l16 => 2 | .l24 => 4)

/-- The containers among what a run has handed on: the span and the index in it of each, oldest first. -/
def containersOf (es : List Emit) : List (Nat × Nat) :=
  es.filterMap fun e => match e with
    | .container span index _ => some (span, index)
    | .logEntry .. | .complete .. => none

/-- STATE_FAULT is set for stream `k`, with its event (R178, R186). -/
def SetsStateFault (k : StreamId) (s t : State) : Prop :=
  t.faults = s.faults ||| 0b0100#4 ∧ t.lastFault.toNat = k.val ∧ latched t.evlatch .deviceFault = true

/-- The parts of a signal context that are fresh at OPEN and at a reel start (R114), on the profile `p`. -/
structure FreshBy (p : Profile) (ctx : SignalContext) : Prop where
  profile : ctx.profile = p
  lanes : ctx.lanes = { retired := none, counts := #v[0, 0, 0], counter := 0, history := [] }
  marks : ctx.marks = { pk := none, period := none, protect := false, hissRef := false, bumpEnd := none }
  hum : ctx.hum = { perf := { cells := [] }, line := { cells := [] }, counter := 0 }
  click : ctx.click =
    { uHist := [], noise := 16 * p.noiseMin, held := [], window := none, lastOut := none, prevEnd := none }
  hiss : ctx.hiss =
    { low := 0, env := 0, th := 256 * p.hissInitial, prevSpan := none, inUse := hissParams p, pendingParams := none }
  position : ctx.position = 0
  reelEnd : ctx.reelEnd = false

/-- A command that acts as a device reset (R183). -/
def isReset : Instr → Bool
  | .deviceReset _ => true
  | _ => false

/-- The fields that a CMD write carries: stream, command, SKIP, tag (10.1). -/
def cmdWritten : Instr → Option (BitVec 4 × BitVec 3 × Bool × BitVec 16)
  | .cmdOpen k skip tag => some (k, 1#3, skip, tag)
  | .cmdStop k skip tag => some (k, 2#3, skip, tag)
  | .cmdAbort k skip tag => some (k, 3#3, skip, tag)
  | .cmdResume k skip tag => some (k, 4#3, skip, tag)
  | .cmdClose k skip tag => some (k, 5#3, skip, tag)
  | .cmdPoll k skip tag => some (k, 6#3, skip, tag)
  | .cmdUndefined .zero k skip tag => some (k, 0#3, skip, tag)
  | .cmdUndefined .seven k skip tag => some (k, 7#3, skip, tag)
  | .commandDispatch | .enable _ | .deviceReset _ | .devstatClear _ | .evlatchClear _ | .evmapWrite _
  | .registerWrite .. | .messageSignallingChange .. | .fetchGrant | .laneReadDone _ | .headerReadDone _
  | .marksReadDone _ | .takeProfileReadDone _ | .waitReadDone _ | .entryReadDone _ | .openProfileReadDone _
  | .pollTimerExpiry _ | .engineGrant | .blockEnd | .rollback _ | .writeDone .. => none

/-! ## Invariants -/

/-- INTx is asserted exactly while message signalling is not enabled and some latched cause is mapped to 0 to 3 (R192). -/
def IntxFollows (s : State) : Prop :=
  s.intx = true ↔ s.msgEnabled = false ∧ ∃ c : Cause, latched s.evlatch c = true ∧ mapEntry s.evmap c < 4

/-- POLLIV holds 1 to 65,535, and the reel table address is 64-byte aligned (R150, R182). -/
def RegistersHeld (s : State) : Prop :=
  s.polliv ≠ 0#16 ∧ tableBase s % 64 = 0

/-- A stream's writes under way are all data writes, or one ordered write alone (R175). -/
def OrderedAlone (s : State) : Prop :=
  ∀ k, (∀ i ∈ issuedOf s k, isData i.write.tag = true) ∨ (issuedOf s k).length ≤ 1

/-- CLOSED or OPENING: no signal context yet (6.2). -/
def unopened (st : StreamState) : Bool :=
  match st with
  | .closed | .opening => true
  | _ => false

/-- A stream holds a signal context exactly when it is neither CLOSED nor OPENING, no checkpoint while it holds no context,
and no taken span while it is CLOSED, OPENING, STOPPED or HALTED (R116, R123, R128, R137). -/
def StreamHolds (x : Stream) : Prop :=
  (x.ctx.isSome = !unopened x.state) ∧
    (unopened x.state = true → x.slot0 = none ∧ x.slot1 = none) ∧
    (unopened x.state = true ∨ atRest x.state = true → x.taken = [])

/-- What the fetch transaction in progress asks of its stream: a take or skip is made for a stream that is neither CLOSED,
OPENING, STOPPED nor HALTED, and an open read for one that is OPENING (R118, R173). -/
def FetchHolds (s : State) : Prop :=
  ∀ txn, s.fetch = some txn →
    (takePhase txn.phase = true → unopened (s.stream txn.stream).state = false ∧ atRest (s.stream txn.stream).state = false) ∧
      (∀ a, txn.phase = .entry a → (s.stream txn.stream).state = .opening) ∧
      (∀ e, txn.phase = .openProfile e → (s.stream txn.stream).state = .opening)

/-- The streams' invariant. -/
def StreamsHold (s : State) : Prop :=
  (∀ k, StreamHolds (s.stream k)) ∧ FetchHolds s

/-- The lane state (R17 to R19): the counter runs below 65,536, the counts never exceed the samples counted, and a retired
lane counts nothing. -/
def LanesHold (ls : LaneState) : Prop :=
  ls.counter < 65536 ∧ ls.counts[0] + ls.counts[1] + ls.counts[2] ≤ ls.counter ∧
    (∀ l : Lane, ls.retired = some l → ls.counts[l] = 0) ∧ ls.history.length ≤ 2

/-- The ranges of the Hiss Expander's state (R92) with its parameters limited (R90). -/
def HissHolds (h : HissState) : Prop :=
  (-2147483392 ≤ h.low ∧ h.low ≤ 2147483392) ∧ (0 ≤ h.env ∧ h.env ≤ 4294966784) ∧
    (0 ≤ h.th ∧ h.th ≤ 2147483392)

/-- The hiss parameters lie in the ranges of 5.2. -/
def HissLimited (p : HissParams) : Prop :=
  (1 ≤ p.splitShift ∧ p.splitShift ≤ 6) ∧ (2 ≤ p.envShift ∧ p.envShift ≤ 10) ∧ p.initial ≤ 8388607 ∧
    (4 ≤ p.refMult ∧ p.refMult ≤ 64) ∧ p.thMin ≤ p.thMax ∧ p.thMax ≤ 8388607 ∧ p.gainFloor ≤ 256

/-- The Click Repairer as the sample at position `n` is about to arrive: the held samples are the last ones before `n`
(R79), at most three of them outside a window that is not LONG (R80), and such a window starts at the oldest held sample
and is no longer than it may be (R68 to R71). -/
def ClickHolds (c : ClickState) (n : Nat) : Prop :=
  c.held.length ≤ n ∧ c.held.map Held.pos = List.range' (n - c.held.length) c.held.length ∧
    (∀ e, c.prevEnd = some e → e < n) ∧
    match c.window with
    | none => c.held.length ≤ 3
    | some w =>
        w.guard ≤ 3 ∧ w.longest ≤ 96 ∧ w.quiet ≤ 3 ∧ w.start ≤ w.nlast ∧ n = w.nlast + w.quiet + 1 ∧
          if w.long = true then c.held.length ≤ 3
          else w.start + c.held.length = n ∧ w.nlast + w.guard + 1 - w.start ≤ w.longest

/-- A value of the internal range (00_scope, Samples). -/
def InRange (x : Int) : Prop :=
  -8388607 ≤ x ∧ x ≤ 8388607

/-- A void, or a value of the internal range (R7). -/
def SampleHolds (v : Sample) : Prop :=
  match v with
  | .value x => InRange x
  | .void _ => True

/-- The profile fields lie in the ranges of 3.2, 4.2, 5.2 and R133. -/
def ProfileLimited (p : Profile) : Prop :=
  (p.perfShift = 0 ∨ 4 ≤ p.perfShift ∧ p.perfShift ≤ 16) ∧
  (p.linePeriod = 0 ∨ 2 ≤ p.linePeriod ∧ p.linePeriod ≤ 4096) ∧
  (4 ≤ p.lineShift ∧ p.lineShift ≤ 16) ∧ p.spliceHumReset ≤ 2 ∧
  (8 ≤ p.clickFactor ∧ p.clickFactor ≤ 255) ∧ (1 ≤ p.noiseMin ∧ p.noiseMin ≤ 65535) ∧ p.guard ≤ 3 ∧
  (4 ≤ p.repairMax ∧ p.repairMax ≤ 96) ∧ p.spliceWidth ≤ 16 ∧ HissLimited (hissParams p)

end Sys2Proof.Machine
end

