-- ==== Sys2Proof/Certificates/Slice0/Obligations.lean ====
section
/-! DEFINITION. The statements about the part, from the manual's numbered rules. -/

open Sys2Proof Sys2Proof.Machine

/-! ## The queue, registers and events -/

/-- A step runs the command at the front of the queue on the state with the queue's rest. The model's choice (log entry 7): with
no command waiting the part idles. -/
def Obligations.StepRunsFrontCommand : Prop :=
  (∀ (c : Instr) (rest : List Instr) (s : State),
    s.pending = c :: rest → step s = exec c { s with pending := rest }) ∧
  ∀ s : State, s.pending = [] → step s = .next s

/-- The part right after reset: the register window (table of 10.1), INTx deasserted (R183), and every stream, arbiter and queue
(the reset columns of R116 and R140, R181, R183, R188). -/
def Obligations.ResetState : Prop :=
  (readRegister State.reset 0x00 = 0x10C13A91#32 ∧ readRegister State.reset 0x04 = 0#32 ∧
  readRegister State.reset 0x08 = 0#32 ∧ readRegister State.reset 0x0C = 100#32 ∧
  readRegister State.reset 0x10 = 0#32 ∧ readRegister State.reset 0x14 = 0#32 ∧
  readRegister State.reset 0x18 = 0#32 ∧ readRegister State.reset 0x1C = 0#32 ∧
  readRegister State.reset 0x20 = 0x7FFF#32 ∧
  (∀ (s : State) (i : Fin 7), readRegister s (0x24 + 4 * i.val) = 0#32) ∧ State.reset.intx = false) ∧
  ((∀ k : StreamId,
    let x := State.reset.stream k
    x.state = .closed ∧ x.tag = 0 ∧ x.position = .none ∧ x.taken = [] ∧ x.slot0 = none ∧ x.slot1 = none ∧
    x.failing = none ∧ x.skip = none ∧ x.openCode = none ∧ x.ctx = none ∧
    x.counters = { lastAddr := 0, lastSeq := 0, released := 0, samples := 0 } ∧
    x.chain = { anchor := none, expected := none, wait := .none, bypass := [] } ∧
    x.timer = none ∧ x.staging = none ∧ x.queue = []) ∧
  State.reset.engineLast = 11 ∧ State.reset.fetchLast = 11 ∧ State.reset.writeLast = 11 ∧
  State.reset.engine = none ∧ State.reset.fetch = none ∧ State.reset.issued = [])

/-- DEVICE_RESET of any cause, with any ENABLE bit written beside RESET (R182, R183): the whole part takes its reset values
and no message is sent. The model's choice (log entries 2 and 7): the host's setting of message signalling and the commands
that wait stay. -/
def Obligations.DeviceResetTakesResetValues : Prop :=
  ∀ (cause : ResetCause) (s : State), ∃ t : State, exec (.deviceReset cause) s = .next t ∧
    t.streams = State.reset.streams ∧ t.cmd = State.reset.cmd ∧ t.evlatch = 0#5 ∧ t.intx = false ∧
    t.messages = s.messages ∧ SameControl State.reset t ∧ SameStatus State.reset t ∧ SameScheduling State.reset t ∧
    t.evmap = 0x7FFF#15 ∧ t.msgEnabled = s.msgEnabled ∧ t.msgVectors = s.msgVectors ∧ t.pending = s.pending

/-- A CMD write of each of the seven commands (R184): dropped with CMD_OVERRUN and DEVICE_FAULT while a command is PENDING
(R186), else taken with the result that ENABLE, the stream field and the command field give. -/
def Obligations.CmdWriteJudged : Prop :=
  ∀ (c : Instr) (s : State) (stream : BitVec 4) (code : BitVec 3) (skip : Bool) (tag : BitVec 16),
    cmdWritten c = some (stream, code, skip, tag) →
    (s.cmd.result = .pending → ∃ t : State, exec c s = .next t ∧ t.cmd = s.cmd ∧ t.streams = s.streams ∧
      t.faults = s.faults ||| 0b1000#4 ∧ t.lastFault = stream ∧ t.evlatch = s.evlatch ||| 0b10000#5 ∧
      SameControl s t ∧ SameEventSetup s t ∧ SameScheduling s t ∧ t.pending = s.pending) ∧
    (s.cmd.result ≠ .pending → exec c s = .next { s with cmd :=
      { stream := stream, code := code, skip := skip, tag := tag
        result := if s.enable = false then .refusedDisabled
          else if 12 ≤ stream.toNat then .refusedStream
          else if code = 0#3 ∨ code = 7#3 then .refusedState
          else .pending } })

/-- What a register read finds in every state (R182, table of 10.1): the fields of each register, every other bit 0, and each byte of
the window, least significant first; a read changes nothing, so it is no command.
Writes of the registers that change nothing else. A write of ENABLE changes that bit alone, and while it is 0 neither arbiter
grants (R180, R182). DEVSTAT_CLEAR and EVLATCH_CLEAR (R186, R191, R192): a fault bit or latch written as 1 is cleared, one
written as 0 stays; the stream of the last fault stays; INTx follows the latches and no message is sent. REGISTER_WRITE (R182):
a full write to POLLIV holds bits 15 to 0 with 0 held as 1, one to TBASE_LO bits 31 to 6, one to TBASE_HI all bits; a write to
ID, to 0x24 to 0x3F or of fewer than four bytes changes nothing. The model's reading (log entry 20): nor does one not aligned to
a register. -/
def Obligations.RegisterWritesTakeEffect : Prop :=
  (∀ s : State,
    readRegister s 0x00 = 0x10C13A91#32 ∧ (readRegister s 0x04).toNat = (if s.enable = true then 1 else 0) ∧
    (readRegister s 0x08).toNat = s.faults.toNat + 2 ^ 8 * s.lastFault.toNat ∧
    (readRegister s 0x0C).toNat = s.polliv.toNat ∧ readRegister s 0x10 = s.tbaseLo ∧ readRegister s 0x14 = s.tbaseHi ∧
    (readRegister s 0x18).toNat = s.cmd.stream.toNat + 2 ^ 4 * s.cmd.code.toNat +
      2 ^ 7 * (if s.cmd.skip = true then 1 else 0) +
      2 ^ 8 * (match s.cmd.result with
        | .none => 0 | .pending => 1 | .accepted => 2 | .refusedState => 3 | .refusedTag => 4 | .refusedStream => 5
        | .refusedDisabled => 6) +
      2 ^ 16 * s.cmd.tag.toNat ∧
    (readRegister s 0x1C).toNat = s.evlatch.toNat ∧ (readRegister s 0x20).toNat = s.evmap.toNat ∧
    (∀ (c : Cause) (i : Nat), (i = match c with
        | .spanNotify => 0 | .attention => 1 | .stopped => 2 | .laneChange => 3 | .deviceFault => 4) →
      latched s.evlatch c = (readRegister s 0x1C).getLsbD i ∧
      mapEntry s.evmap c = (readRegister s 0x20).toNat / 8 ^ i % 8) ∧
    ∀ offset : Nat, offset < 64 →
      (readWindow s offset).toNat = (readRegister s (offset - offset % 4)).toNat / 256 ^ (offset % 4) % 256) ∧
  ((∀ (on : Bool) (s : State), exec (.enable on) s = .next { s with enable := on }) ∧
    ∀ s : State, s.enable = false → exec .fetchGrant s = .next s ∧ exec .engineGrant s = .next s) ∧
  (∀ (value : Word32) (s : State), ∃ f : BitVec 4,
    (∀ i : Fin 4, f.getLsbD i.val = (s.faults.getLsbD i.val && !value.getLsbD i.val)) ∧
      exec (.devstatClear value) s = .next { s with faults := f }) ∧
  (∀ (value : Word32) (s : State), ∃ (l : BitVec 5) (b : Bool),
    (∀ i : Fin 5, l.getLsbD i.val = (s.evlatch.getLsbD i.val && !value.getLsbD i.val)) ∧
      exec (.evlatchClear value) s = .next { s with evlatch := l, intx := b } ∧
      IntxFollows { s with evlatch := l, intx := b }) ∧
  ∀ (value : Word32) (s : State),
    exec (.registerWrite 0x0C#6 4 value) s = .next { s with
      polliv := if value.setWidth 16 = 0#16 then 1#16 else value.setWidth 16 } ∧
    (∃ lo : Word32, exec (.registerWrite 0x10#6 4 value) s = .next { s with tbaseLo := lo } ∧
      ∀ i : Fin 32, lo.getLsbD i.val = (value.getLsbD i.val && decide (6 ≤ i.val))) ∧
    exec (.registerWrite 0x14#6 4 value) s = .next { s with tbaseHi := value } ∧
    exec (.registerWrite 0x00#6 4 value) s = .next s ∧
    (∀ offset : BitVec 6, 0x24 ≤ offset.toNat → exec (.registerWrite offset 4 value) s = .next s) ∧
    (∀ (offset : BitVec 6) (size : Nat), size < 4 ∨ offset.toNat % 4 ≠ 0 →
      exec (.registerWrite offset size value) s = .next s)

/-- EVMAP_WRITE (R192): the map takes bits 14 to 0, and with message signalling enabled one message follows for each latched
cause whose entry becomes a vector from another value, on that vector modulo the vectors granted. The model's choice (log entry
43): the messages of one write follow in the order of EVLATCH. Whether each could be sent is a free value (log entry 3), of which
nothing is said.
MESSAGE_SIGNALLING_CHANGE (R192): INTx follows at once, and no message is sent. -/
def Obligations.VectorSetupSendsAndMovesIntx : Prop :=
  (∀ (value : Word32) (s : State), ∃ (ms : List Message) (b : Bool),
    ms.map (fun m => (m.cause, m.vector)) =
      (if s.msgEnabled = true then
        (allCauses.filter fun c => latched s.evlatch c && decide (mapEntry (value.setWidth 15) c < 4) &&
          decide (mapEntry (value.setWidth 15) c ≠ mapEntry s.evmap c)).map
            fun c => (c, mapEntry (value.setWidth 15) c % vectorCount s.msgVectors)
      else []) ∧
    exec (.evmapWrite value) s =
      .next { s with evmap := value.setWidth 15, intx := b, messages := s.messages ++ ms } ∧
    IntxFollows { s with evmap := value.setWidth 15, intx := b, messages := s.messages ++ ms }) ∧
  (∀ (enabled : Bool) (vectors : VectorCount) (s : State), ∃ b : Bool,
    exec (.messageSignallingChange enabled vectors) s =
      .next { s with msgEnabled := enabled, msgVectors := vectors, intx := b } ∧
    IntxFollows { s with msgEnabled := enabled, msgVectors := vectors, intx := b })

/-- A cause signal (R191, R192): a set latch stays set and nothing more happens; a clear latch is set, the others stay, and
with message signalling enabled one message follows on the cause's vector modulo the vectors granted when its entry is 0 to
3, and none when it is 4 to 7. -/
def Obligations.CauseSignalLatchesOnce : Prop :=
  ∀ (c : Cause) (s : State),
    (latched s.evlatch c = true → signal c s = s) ∧
    (latched s.evlatch c = false → ∃ (ms : List Message) (b : Bool),
      ms.map (fun m => (m.cause, m.vector)) =
        (if s.msgEnabled = true ∧ mapEntry s.evmap c < 4 then
          [(c, mapEntry s.evmap c % vectorCount s.msgVectors)] else []) ∧
      signal c s = { s with
        evlatch := s.evlatch ||| BitVec.ofNat 5 (2 ^ causeIndex c), intx := b, messages := s.messages ++ ms } ∧
      (∀ d : Cause, latched (signal c s).evlatch d = (latched s.evlatch d || decide (d = c))) ∧
      IntxFollows (signal c s))

/-- Through every step INTx follows the latches, the map and message signalling (R192), and POLLIV holds 1 to 65,535 and the reel
table address is 64-byte aligned (R150, R182). -/
def Obligations.RegistersKeptEveryStep : Prop :=
  ∀ s t : State, step s = .next t → (IntxFollows s → IntxFollows t) ∧ (RegistersHeld s → RegistersHeld t)

/-- The invariants that every step keeps hold at reset (R182, R183, R192; R116; R175). -/
def Obligations.InvariantsHoldAtReset : Prop :=
  IntxFollows State.reset ∧ RegistersHeld State.reset ∧ StreamsHold State.reset ∧ OrderedAlone State.reset

/-- Which commands change which register: ENABLE only ENABLE, POLLIV and TBASE only REGISTER_WRITE, EVMAP only EVMAP_WRITE,
CMD only a CMD write and COMMAND_DISPATCH, DEVSTAT bits are cleared only by DEVSTAT_CLEAR and latches only by EVLATCH_CLEAR, but
for a device reset (10.1, R180 to R192). The model's choice (log entry 2): message signalling changes only by
MESSAGE_SIGNALLING_CHANGE, so a device reset keeps it. -/
def Obligations.RegisterOwners : Prop :=
  ∀ (c : Instr) (s t : State), c.wellFormed = true → exec c s = .next t →
    (t.msgEnabled = s.msgEnabled ∧ t.msgVectors = s.msgVectors ∨ ∃ e v, c = .messageSignallingChange e v) ∧
    (isReset c = true ∨
      (t.enable = s.enable ∨ ∃ b, c = .enable b) ∧
      (t.polliv = s.polliv ∧ t.tbaseLo = s.tbaseLo ∧ t.tbaseHi = s.tbaseHi ∨ ∃ o n v, c = .registerWrite o n v) ∧
      (t.evmap = s.evmap ∨ ∃ v, c = .evmapWrite v) ∧
      (t.cmd = s.cmd ∨ c = .commandDispatch ∨ (cmdWritten c).isSome = true) ∧
      ((∀ i : Fin 4, s.faults.getLsbD i.val = true → t.faults.getLsbD i.val = true) ∨ ∃ v, c = .devstatClear v) ∧
      ((∀ d : Cause, latched s.evlatch d = true → latched t.evlatch d = true) ∨ ∃ v, c = .evlatchClear v))

/-! ## Commands and the state machine of a stream -/

/-- The judgement of a command (R117, R127, R185): its table by state, with the tag of RESUME; a refused command shows its result
and changes nothing else. While a transition of its stream is in progress it stays PENDING: from the moment a rollback begins,
when the later of the stream's block and fetch has ended, until its writes are handed over (R137, R173, R185), and, the model's
reading (log entry 18), while the record of another transition is owed. -/
def Obligations.CommandJudgement : Prop :=
  (∀ (tag : BitVec 16) (x : Stream),
    judge 1#3 tag x = (if x.state = .closed then .accepted else .refusedState) ∧
    judge 2#3 tag x = (if x.state = .running ∨ x.state = .awaitLink then .accepted else .refusedState) ∧
    judge 3#3 tag x =
      (if x.state = .running ∨ x.state = .awaitLink ∨ x.state = .stopping then .accepted else .refusedState) ∧
    judge 4#3 tag x =
      (if x.state = .stopped ∨ x.state = .halted then (if tag = x.tag then .accepted else .refusedTag)
        else .refusedState) ∧
    judge 5#3 tag x = (if x.state = .stopped ∨ x.state = .halted then .accepted else .refusedState) ∧
    judge 6#3 tag x = (if x.state = .opening then .refusedState else .accepted)) ∧
  (∀ (s : State) (k : StreamId) (code : BitVec 3),
    (Dispatches s k code → judge code s.cmd.tag (s.stream k) ≠ .accepted →
      exec .commandDispatch s = .next (s.judged (judge code s.cmd.tag (s.stream k)))) ∧
    (s.cmd.result = .pending → s.cmd.stream.toNat = k.val → InTransition s k →
      exec .commandDispatch s = .next s))

/-- STOP accepted in AWAIT_LINK with no begun span unfinished and no take in progress goes to STOPPED at once (R122): the
chain position stays, the tag rises by 1, the wait ends and STOPPED is signalled.
STOP accepted otherwise goes to STOPPING, or on to STOPPED when nothing is left to do (R122, R123): the signal context
stays and the wait ends. With no block and no fetch of the stream in progress the spans given back are those that have not
begun, and no begun span is; else the list, the chain position and the expectation stay as they are (R117, R173). The model's
readings (log entries 16 and 17): spans are given back at once when nothing of the stream is in progress, and STOPPED waits for
the stream's fetch transaction to end; a skip in progress counts as a take in progress (log entry 47).
Each transition hands over its progress record (R131, R190; for its lanes during a block log entry 49): that of STOPPED with the raised tag, that of STOPPING as the stream
stood at the acceptance. A fetch transaction in progress goes on, and a wait read of the stream is marked to start nothing further
(R173; log entry 17). -/
def Obligations.StopAccepted : Prop :=
  (∀ (s : State) (k : StreamId), Dispatches s k 2#3 → (s.stream k).state = .awaitLink → (s.stream k).taken = [] →
    taking s k = false → ∃ t : State, exec .commandDispatch s = .next t ∧ t.cmd = (s.judged .accepted).cmd ∧
      (t.stream k).apart = { (s.stream k).apart with
        state := .stopped, tag := (s.stream k).tag + 1, timer := none, readDue := false, pollAgain := false
        chain := { (s.stream k).chain with wait := .none } } ∧
      (∀ p, (s.stream k).progressAddr = some p → UnderWay t k
        (recordWrite k { s.stream k with state := .stopped, tag := (s.stream k).tag + 1 } p)) ∧
      latched t.evlatch .stopped = true ∧ FetchStays k s t ∧ OthersKept k s t ∧ SameStatus s t ∧ SameAround s t) ∧
  (∀ (s : State) (k : StreamId), Dispatches s k 2#3 →
    ((s.stream k).state = .running ∨ (s.stream k).state = .awaitLink ∧
      ((s.stream k).taken ≠ [] ∨ taking s k = true)) →
    ∃ t : State, exec .commandDispatch s = .next t ∧ t.cmd = (s.judged .accepted).cmd ∧
      (((s.stream k).taken ≠ [] ∨ serving s k = true ∨ fetching s k = true) → (t.stream k).state = .stopping) ∧
      ((s.stream k).taken = [] ∧ serving s k = false ∧ fetching s k = false → (t.stream k).state = .stopped) ∧
      SameHoldings (s.stream k) (t.stream k) ∧ (t.stream k).failing = (s.stream k).failing ∧
      (t.stream k).skip = (s.stream k).skip ∧ (t.stream k).timer = none ∧ (t.stream k).chain.wait = .none ∧
      (serving s k = false ∧ fetching s k = false → (t.stream k).taken = allGivenBack (s.stream k).taken) ∧
      (serving s k = true ∨ fetching s k = true → (t.stream k).taken = (s.stream k).taken ∧
        (t.stream k).position = (s.stream k).position ∧
        (t.stream k).chain.anchor = (s.stream k).chain.anchor ∧
        (t.stream k).chain.expected = (s.stream k).chain.expected) ∧
      (∀ stopping : Stream, stopping = { (s.stream k).apart with
          state := .stopping, timer := none, readDue := false, pollAgain := false, flushMade := false, gaveBack := false
          chain := { (s.stream k).chain with wait := .none } } →
        (serving s k = true ∨ fetching s k = true → (t.stream k).apart = stopping ∧ SameEvents s t) ∧
        (serving s k = false → fetching s k = false →
          ∃ z : Stream, z.apart = stopping ∧ StopWorkFollows k (s.setStream k z) t)) ∧
      (∀ p, (s.stream k).progressAddr = some p →
        UnderWay t k (recordWrite k { s.stream k with state := .stopping } p) ∧
        ((t.stream k).state = .stopped → (t.stream k).tag = (s.stream k).tag + 1 ∧
          UnderWay t k (recordWrite k (t.stream k) p))) ∧
      FetchStays k s t ∧ OthersKept k s t ∧ SameStatus s t ∧ SameAround s t)

/-- A stop gives back the spans that have not begun (R123 step 4, R176): their POSTED words enter the write queue oldest first,
behind what it holds but before a queued state word of the newest begun span; exactly the spans that have not begun are marked;
the chain position becomes the oldest of them and the expected sequence what it was before that span's take. The staging store is
emptied when it holds a block of a span that has not begun, and kept otherwise (R169). With none of them, nothing changes.
The model's reading (log entry 16): position and expectation are set when the spans are given back. -/
def Obligations.StopGivesBackUnbegun : Prop :=
  ∀ x : Stream,
    ((∀ u ∈ x.taken, u.start ≠ none ∨ u.givingBack = true) → giveBackUnbegun x = x) ∧
    ∀ (u : Taken) (rest : List Taken) (ahead behind : List Write),
      x.taken.filter (fun v => decide (v.start = none) && !v.givingBack) = u :: rest →
      x.queue = ahead ++ behind →
      (∀ w ∈ ahead, ∀ (n : Taken) (b : Bool), (x.taken.filter hasBegun).getLast? = some n → w.tag ≠ .finish n.tid b) →
      (behind = [] ∨ ∃ (w : Write) (ws : List Write) (n : Taken) (b : Bool), behind = w :: ws ∧
        (x.taken.filter hasBegun).getLast? = some n ∧ w.tag = .finish n.tid b) →
      (giveBackUnbegun x).queue = ahead ++
        ((u :: rest).map fun v => { addr := v.addr, bytes := [1#8, 0#8, 0#8, 0#8], tag := .giveBack v.tid }) ++ behind ∧
      (giveBackUnbegun x).taken = allGivenBack x.taken ∧
      (giveBackUnbegun x).position = .span u.addr ∧ (giveBackUnbegun x).chain.expected = u.expBefore ∧
      (giveBackUnbegun x).chain.anchor = none ∧ (giveBackUnbegun x).gaveBack = true ∧
      (x.staging = none → (giveBackUnbegun x).staging = none) ∧
      (∀ b v, x.staging = some b → findTaken x b.tid = some v →
        (giveBackUnbegun x).staging = if v.start = none then none else some b) ∧
      (∀ b, x.staging = some b → findTaken x b.tid = none → (giveBackUnbegun x).staging = some b) ∧
      SameHoldings x (giveBackUnbegun x) ∧ (giveBackUnbegun x).state = x.state

/-- OPEN accepted (R116, R118): the stream is OPENING, its list, slots, failing-span record, skip request and open failure
code are emptied, its tag and counters are kept, and its open read is due; no progress record is handed over (R131).
ABORT accepted (R124, R169): the stream is ABORTING, its wait ends and its staging store is emptied; its context, its
slots, its list and its chain position wait for the rollback. A fetch transaction in progress goes on, and a wait read of the
stream is marked to start nothing further (R173; log entry 17).
RESUME accepted with the stream's tag (R127): the stream is RUNNING, the skip request is the failing span's address with
SKIP set (absent with no record) and absent without it, and the record, the context and the expected sequence stay; the anchor
stays, and where it is the chain position its next-link is to be read again, so what is known of it is forgotten (R123, R127, R137;
log entry 16).
ABORT and RESUME each hand over the progress record of the state entered (R131, R190; for its lanes during a block log entry 49). -/
def Obligations.OpenAbortAndResumeAccepted : Prop :=
  (∀ (s : State) (k : StreamId), Dispatches s k 1#3 → (s.stream k).state = .closed →
    exec .commandDispatch s = .next (drain ((s.judged .accepted).setStream k { s.stream k with
      state := .opening, taken := [], slot0 := none, slot1 := none, failing := none, halt := none, skip := none
      openCode := none, openDue := true }))) ∧
  (∀ (s : State) (k : StreamId), Dispatches s k 3#3 →
    ((s.stream k).state = .running ∨ (s.stream k).state = .awaitLink ∨ (s.stream k).state = .stopping) →
    ∃ t : State, exec .commandDispatch s = .next t ∧ t.cmd = (s.judged .accepted).cmd ∧
      (t.stream k).apart = { (s.stream k).apart with
        state := .aborting, staging := none, timer := none, readDue := false, pollAgain := false
        chain := { (s.stream k).chain with wait := .none } } ∧
      (∀ p, (s.stream k).progressAddr = some p →
        UnderWay t k (recordWrite k { s.stream k with state := .aborting } p)) ∧
      FetchStays k s t ∧ OthersKept k s t ∧ SameStatus s t ∧ SameEvents s t ∧ SameAround s t) ∧
  (∀ (s : State) (k : StreamId), Dispatches s k 4#3 →
    ((s.stream k).state = .stopped ∨ (s.stream k).state = .halted) → s.cmd.tag = (s.stream k).tag →
    ∃ t : State, exec .commandDispatch s = .next t ∧ t.cmd = (s.judged .accepted).cmd ∧
      (t.stream k).state = .running ∧
      (t.stream k).skip = (if s.cmd.skip = true then (s.stream k).failing.map (fun f => f.addr) else none) ∧
      (t.stream k).failing = (s.stream k).failing ∧ SameHoldings (s.stream k) (t.stream k) ∧
      (t.stream k).position = (s.stream k).position ∧ (t.stream k).chain.expected = (s.stream k).chain.expected ∧
      (t.stream k).chain.bypass = (s.stream k).chain.bypass ∧ (t.stream k).tag = (s.stream k).tag ∧
      ((∀ b, (s.stream k).position ≠ .anchor b) → (t.stream k).chain.anchor = (s.stream k).chain.anchor) ∧
      (∀ b, (s.stream k).position = .anchor b → (t.stream k).chain.anchor =
        (s.stream k).chain.anchor.map fun c => { addr := c.addr, sequence := c.sequence, link := 0, finished := c.finished }) ∧
      (t.stream k).chain.wait = (s.stream k).chain.wait ∧ (t.stream k).timer = (s.stream k).timer ∧
      (t.stream k).readDue = (s.stream k).readDue ∧
      (t.stream k).taken = (s.stream k).taken ∧ (t.stream k).staging = (s.stream k).staging ∧
      (∀ p, (s.stream k).progressAddr = some p →
        UnderWay t k (recordWrite k { s.stream k with state := .running } p)) ∧
      OthersKept k s t ∧ SameStatus s t ∧ SameEvents s t ∧ SameAround s t ∧ t.fetch = s.fetch)

/-- CLOSE accepted (R128): the stream is CLOSED, its signal context, slots and list are discarded and the skip request is
absent; the tag, the failing-span record, the open failure code and the counters stay; STOPPED is signalled. Its chain context is
emptied at once, or, when a wait read of the stream is in progress, when that read ends, whatever it found (R173; log entry
19). Emptied at once with no FINISHED anchor, it hands over the progress record of CLOSED; with one, the anchor's RELEASED word is
queued and the record waits for it (R188, R190; log entries 18 and 19). A fetch transaction in progress goes on, and a wait read of
the stream is marked to start nothing further (R173; log entry 17). -/
def Obligations.CloseAccepted : Prop :=
  ∀ (s : State) (k : StreamId), Dispatches s k 5#3 →
    ((s.stream k).state = .stopped ∨ (s.stream k).state = .halted) →
    ∃ t : State, exec .commandDispatch s = .next t ∧ t.cmd = (s.judged .accepted).cmd ∧
      (let y := t.stream k
       y.state = .closed ∧ y.ctx = none ∧ y.slot0 = none ∧ y.slot1 = none ∧ y.taken = [] ∧ y.skip = none ∧
       y.position = .none ∧ y.tag = (s.stream k).tag ∧ y.failing = (s.stream k).failing ∧
       y.openCode = (s.stream k).openCode ∧ y.counters = (s.stream k).counters) ∧
      (waitReading s k = false →
        (t.stream k).chain = { anchor := none, expected := none, wait := .none, bypass := [] } ∧
        (∀ c, (s.stream k).chain.anchor = some c → c.finished = true → (t.stream k).owed = [.closed] ∧
          UnderWay t k { addr := c.addr, bytes := [4#8, 0#8, 0#8, 0#8], tag := .anchorRelease .close c.sequence }) ∧
        ((∀ c, (s.stream k).chain.anchor = some c → c.finished = false) → ∀ p, (s.stream k).progressAddr = some p →
          UnderWay t k (recordWrite k { s.stream k with state := .closed, position := .none } p))) ∧
      (waitReading s k = true → (t.stream k).chain = { (s.stream k).chain with wait := .none } ∧
        ∀ data : ReadResult, ∃ u : State, exec (.waitReadDone data) t = .next u ∧ u.fetch = none ∧
          (u.stream k).chain = { anchor := none, expected := none, wait := .none, bypass := [] } ∧
          (u.stream k).state = .closed ∧ (u.stream k).tag = (s.stream k).tag ∧ OthersKept k t u ∧ SameAround t u) ∧
      latched t.evlatch .stopped = true ∧ FetchStays k s t ∧ OthersKept k s t ∧ SameStatus s t ∧ SameAround s t

/-- POLL (R129): refused in OPENING. In AWAIT_LINK the timer stops and a wait read is due, or, with a wait read in progress,
one more is asked for. In every other state it is accepted and nothing changes but the command's result. -/
def Obligations.PollRereadsAtOnce : Prop :=
  ∀ (s : State) (k : StreamId), Dispatches s k 6#3 →
    ((s.stream k).state = .opening → exec .commandDispatch s = .next (s.judged .refusedState)) ∧
    ((s.stream k).state ≠ .opening → exec .commandDispatch s = .next (drain
      (if (s.stream k).state ≠ .awaitLink then s.judged .accepted
      else if waitReading s k = true then (s.judged .accepted).setStream k { s.stream k with pollAgain := true }
      else (s.judged .accepted).setStream k { s.stream k with timer := none, readDue := true })))

/-- A stream's resume tag rises by 1 (modulo 65,536) when the stream enters STOPPED or HALTED, and at no other command but a
device reset, which sets it to 0 (R130). -/
def Obligations.TagChangesOnlyAtRest : Prop :=
  ∀ (c : Instr) (s t : State) (k : StreamId), c.wellFormed = true → exec c s = .next t →
    (isReset c = true → (t.stream k).tag = 0#16) ∧
    (isReset c = false → (t.stream k).tag =
      if atRest (t.stream k).state = true ∧ atRest (s.stream k).state = false then (s.stream k).tag + 1
      else (s.stream k).tag)

/-- Every transition of a stream is shown by a progress record (R130, R131, R190): after any command but a device reset that has
brought a stream with a progress address to another state than CLOSED and OPENING, a progress record to that address with the new
state and the stream's tag is queued or issued, or, in the model's reading (log entry 18), waits for an anchor's release with
that state. -/
def Obligations.TransitionsRecorded : Prop :=
  ∀ (c : Instr) (s t : State) (k : StreamId) (p : Nat), c.wellFormed = true → isReset c = false → exec c s = .next t →
    (t.stream k).state ≠ (s.stream k).state → unopened (t.stream k).state = false →
    (t.stream k).progressAddr = some p →
    (t.stream k).state ∈ (t.stream k).owed ∨ ∃ w : Write, UnderWay t k w ∧ w.addr = p ∧ w.tag = .progress ∧
      w.bytes.length = 64 ∧ fieldAt w.bytes 0x00 1 = stateCode (t.stream k).state ∧
      fieldAt w.bytes 0x02 2 = (t.stream k).tag.toNat

/-- Through every command of its interface a stream holds a signal context exactly when it is neither CLOSED nor OPENING, no
checkpoint without one, and no taken span while CLOSED, OPENING, STOPPED or HALTED (R116, R123, R128, R137). -/
def Obligations.StreamsHoldEveryStep : Prop :=
  ∀ s t : State, (∀ c ∈ s.pending, c.wellFormed = true) → StreamsHold s → step s = .next t → StreamsHold t

/-- Every command but a device reset changes the record of at most one stream: every other stream keeps its record, and its write
queue but for writes that leave it from the front (R113: no stream reads or changes the signal context of another). -/
def Obligations.OneStreamPerCommand : Prop :=
  ∀ (c : Instr) (s t : State), c.wellFormed = true → isReset c = false → exec c s = .next t →
    ∃ k : StreamId, OthersKept k s t

/-- Through every step, the writes a stream has under way are all data writes, or one ordered write alone (R175). -/
def Obligations.OrderedWritesAloneEveryStep : Prop :=
  ∀ s t : State, OrderedAlone s → step s = .next t → OrderedAlone t

/-! ## The Chain Fetch Unit -/

/-- The fetch arbiter (R174): with ENABLE 1, the unit free and some stream requesting, the grant goes to the first requesting
stream counted upward from the one after the last granted, which it records; of other streams only queued writes are issued.
The engine arbiter (R171): with ENABLE 1, the engine idle and some stream ready, the grant goes to the first ready stream
counted upward from the one after the last granted, which it records, and the engine serves it; of other streams only
queued writes are issued.
A granted block leaves the staging store (R169). The model's readings: a granted stop flush has been made, its work done at the
grant (log entry 4), and with no stream asking, or the unit or engine busy, nothing is granted and nothing changes (log entry
5).
A stream is ready (R134, R170) exactly when it is RUNNING with a staged block, which may be block 0 only with fewer than two begun
spans in its list, or STOPPING with a staged block of a begun span, or STOPPING with every block of its newest begun span processed,
that span not LAST and no flush made. It requests (R148, R150, R169, R174) exactly when its open read is due, when it needs a lane
read (R169), or when, RUNNING or in AWAIT_LINK with every span of its list begun, it is not waiting or a wait read is due, and the
RELEASED word of its anchor is not out (R143, R196; log entry 9). -/
def Obligations.ArbitersGrantRoundRobin : Prop :=
  (∀ s : State, s.enable = true →
    (s.fetch = none → ∀ j : StreamId, requests s j = true → ∃ (k : StreamId) (t : State),
      exec .fetchGrant s = .next t ∧ requests s k = true ∧ t.fetchLast = k ∧
      (∀ i : StreamId, requests s i = true → (k - (s.fetchLast + 1)).val ≤ (i - (s.fetchLast + 1)).val) ∧
      SameHoldings (s.stream k) (t.stream k) ∧ (t.stream k).taken = (s.stream k).taken ∧ (t.stream k).tag = (s.stream k).tag ∧
      OthersKept k s t ∧ SameControl s t ∧ t.cmd = s.cmd ∧ t.engine = s.engine) ∧
    ((s.fetch ≠ none ∨ ∀ j : StreamId, requests s j = false) → exec .fetchGrant s = .next s)) ∧
  (∀ s : State, s.enable = true →
    (s.engine = none → ∀ j : StreamId, ready s j = true → ∃ (k : StreamId) (t : State) (e : Serving),
      exec .engineGrant s = .next t ∧ ready s k = true ∧ t.engineLast = k ∧ t.engine = some e ∧ e.stream = k ∧
      (∀ i : StreamId, ready s i = true → (k - (s.engineLast + 1)).val ≤ (i - (s.engineLast + 1)).val) ∧
      ((s.stream k).staging ≠ none → blockReady (s.stream k) = true ∨ stoppingReady (s.stream k) = true →
        (t.stream k).staging = none) ∧
      (blockReady (s.stream k) = false → stoppingReady (s.stream k) = false → (t.stream k).flushMade = true) ∧
      (t.stream k).state = (s.stream k).state ∧ (t.stream k).tag = (s.stream k).tag ∧
      (t.stream k).chain = (s.stream k).chain ∧ (t.stream k).position = (s.stream k).position ∧
      (t.stream k).counters = (s.stream k).counters ∧ (t.stream k).failing = (s.stream k).failing ∧
      OthersKept k s t ∧ SameControl s t ∧ SameStatus s t ∧ SameEvents s t ∧ t.cmd = s.cmd ∧ t.fetch = s.fetch) ∧
    ((s.engine ≠ none ∨ ∀ j : StreamId, ready s j = false) → exec .engineGrant s = .next s)) ∧
  (∀ (s : State) (k : StreamId), ready s k = true ↔
    ((s.stream k).state = .running ∧ ∃ b, (s.stream k).staging = some b ∧
      (b.block ≠ 0 ∨ ((s.stream k).taken.filter fun u => u.start.isSome).length < 2)) ∨
    ((s.stream k).state = .stopping ∧ ∃ b u, (s.stream k).staging = some b ∧
      findTaken (s.stream k) b.tid = some u ∧ u.start ≠ none) ∨
    ((s.stream k).state = .stopping ∧ (s.stream k).flushMade = false ∧ ∃ before u after,
      (s.stream k).taken = before ++ u :: after ∧ u.start ≠ none ∧ (∀ v ∈ after, v.start = none) ∧
      u.processed = (u.header.count + 1023) / 1024 ∧ u.header.last = false)) ∧
  (∀ (s : State) (k : StreamId), requests s k = true ↔
    ((s.stream k).state = .opening ∧ (s.stream k).openDue = true) ∨
    ((s.stream k).staging = none ∧ ∃ before u after, (s.stream k).taken = before ++ u :: after ∧
      (∀ v ∈ before, (v.header.count + 1023) / 1024 ≤ v.staged) ∧ u.staged < (u.header.count + 1023) / 1024 ∧
      ((s.stream k).state = .running ∨ (s.stream k).state = .stopping ∧ u.start ≠ none)) ∨
    (((s.stream k).state = .running ∨ (s.stream k).state = .awaitLink) ∧ (∀ u ∈ (s.stream k).taken, u.start ≠ none) ∧
      (s.stream k).position ≠ .none ∧ ((s.stream k).chain.wait = .none ∨ (s.stream k).readDue = true) ∧
      ∀ (a tid : Nat) (i : Issued), (s.stream k).position = .anchor a → i ∈ s.issued → i.stream = k →
        i.write.tag = .finish tid true → i.write.addr ≠ a))

/-- What a grant starts (R118, R144, R148, R149, R169, R174): the open read first, else a lane read, else a take at a span
address, a link followed, a state wait, or a link wait on the anchor, each with the reads it makes (10.8), at the skip request
the whole header (R154). A wait read ends the wait's timer and answers the read that was due (R150). With TBASE 0 an open
read is not made: TABLE_FAULT is set and the stream is CLOSED (R186). A take at an address that is not 64-byte aligned fails with
DESC_INVALID without a read (R144). The model's reading (log entry 29): that OPEN fails when its open
read is granted. A lane read is for the first block not yet staged, of a begun span in STOPPING (R123 step 1, R169); a
STOPPING stream is granted nothing else but the lane reads of begun spans. -/
def Obligations.FetchGrantStartsReads : Prop :=
  ∀ (s : State) (k : StreamId), s.enable = true → s.fetch = none →
    firstAfter s.fetchLast (requests s) = some k → ∃ t : State, exec .fetchGrant s = .next t ∧
      (needsOpenRead (s.stream k) = true → (s.stream k).state = .opening ∧
        (tableBase s ≠ 0 → t.fetch = some { stream := k, phase := .entry (tableBase s + 64 * k.val) } ∧
          phaseReads (.entry (tableBase s + 64 * k.val)) = [{ addr := tableBase s + 64 * k.val, len := 64 }] ∧
          (t.stream k).apart = { (s.stream k).apart with openDue := false }) ∧
        (tableBase s = 0 → t.fetch = none ∧ (t.stream k).apart = { (s.stream k).apart with openDue := false, state := .closed } ∧ t.faults = s.faults ||| 0b0001#4 ∧
          t.lastFault.toNat = k.val ∧ latched t.evlatch .attention = true ∧ latched t.evlatch .deviceFault = true)) ∧
      (needsOpenRead (s.stream k) = false → needsLaneRead (s.stream k) = true →
        (s.stream k).staging = none ∧ ∃ u : Taken, nextBlock (s.stream k) = some u ∧
          ((s.stream k).state = .running ∨ (s.stream k).state = .stopping ∧ u.start ≠ none) ∧
          ∀ ctx : SignalContext, (s.stream k).ctx = some ctx → (t.stream k).apart = (s.stream k).apart ∧
            ∃ p reads, t.fetch = some { stream := k, phase := p } ∧
              p = .lane u.tid u.staged (min 1024 (u.header.count - 1024 * u.staged)) reads ∧ phaseReads p = reads ∧
              reads = (laneAddrs ctx.config.laneCount u.header).map fun a =>
                { addr := a + 1024 * u.staged * containerSize ctx.config.laneFormat
                  len := min 1024 (u.header.count - 1024 * u.staged) * containerSize ctx.config.laneFormat }) ∧
      (needsOpenRead (s.stream k) = false → needsLaneRead (s.stream k) = false →
        ((s.stream k).state = .running ∨ (s.stream k).state = .awaitLink) ∧
        (∀ u ∈ (s.stream k).taken, u.start ≠ none) ∧
        (∀ a, (s.stream k).position = .span a → (s.stream k).chain.wait = .none →
          (a % 64 = 0 → t.fetch = some { stream := k, phase := .header a } ∧
            phaseReads (.header a) = [{ addr := a, len := 128 }] ∧
            (t.stream k).apart = { (s.stream k).apart with timer := none, readDue := false, pollAgain := false }) ∧
          (a % 64 ≠ 0 → t.fetch = none ∧ HaltsWith (takeHalt a .descInvalid 0 (s.stream k)) (s.stream k) (t.stream k))) ∧
        (∀ a, (s.stream k).position = .span a → (s.stream k).chain.wait ≠ .none →
          ∃ p, t.fetch = some { stream := k, phase := p } ∧ p = .wait .state a ((s.stream k).skip == some a) false ∧
            phaseReads p = [{ addr := a, len := if (s.stream k).skip = some a then 128 else 4 }] ∧
            (t.stream k).apart = { (s.stream k).apart with
              timer := none, readDue := false, pollAgain := false, chain := { (s.stream k).chain with wait := .state } }) ∧
        (∀ a, (s.stream k).position = .anchor a → (s.stream k).chain.wait ≠ .none ∨ anchorLink (s.stream k) = 0 →
          ∃ p, t.fetch = some { stream := k, phase := p } ∧ p = .wait .link a ((s.stream k).skip == some a) false ∧
            phaseReads p = (if (s.stream k).skip = some a then [{ addr := a, len := 128 }]
              else [{ addr := a + 0x50, len := 8 }]) ∧
            (t.stream k).apart = { (s.stream k).apart with
              timer := none, readDue := false, pollAgain := false, chain := { (s.stream k).chain with wait := .link } }) ∧
        (∀ a, (s.stream k).position = .anchor a → (s.stream k).chain.wait = .none →
          (∀ b ∈ (s.stream k).chain.bypass, b.preceding ≠ a) → anchorLink (s.stream k) ≠ 0 →
          (anchorLink (s.stream k) % 64 = 0 → t.fetch = some { stream := k, phase := .header (anchorLink (s.stream k)) } ∧
            (t.stream k).apart = { (s.stream k).apart with
              position := .span (anchorLink (s.stream k)), timer := none, readDue := false, pollAgain := false }) ∧
          (anchorLink (s.stream k) % 64 ≠ 0 → t.fetch = none ∧
            HaltsWith (takeHalt (anchorLink (s.stream k)) .descInvalid 0 (s.stream k))
              { s.stream k with position := .span (anchorLink (s.stream k)) } (t.stream k))))

/-- LANE_READ_DONE (R6, R169, R173): the fetch transaction ends. With the stream RUNNING and the block's span in its list, or
STOPPING and that span begun, the staging store takes the bytes of each lane, or none for a lane whose read failed. With the
stream ABORTING or HALTING, or STOPPING and the span not begun, the result is discarded. In STOPPING with no block in progress
the stop work follows (R123): the spans that have not begun are given back now (step 4; log entry 16), or, with no span left, the
stream enters STOPPED (log entry 17). The signal context stays. -/
def Obligations.LaneReadStagesBlock : Prop :=
  ∀ (s : State) (k : StreamId) (tid block count : Nat) (reads : List ReadReq) (lanes : List ReadResult),
    s.fetch = some { stream := k, phase := .lane tid block count reads } → lanes.length = reads.length →
    ∃ t : State, exec (.laneReadDone lanes) s = .next t ∧ t.fetch = none ∧ OthersKept k s t ∧
      SameControl s t ∧ SameStatus s t ∧ t.cmd = s.cmd ∧
      (∀ u : Taken, findTaken (s.stream k) tid = some u →
        ((s.stream k).state = .running ∨ (s.stream k).state = .stopping ∧ u.start ≠ none) →
        ∃ data : List ReadResult, (t.stream k).staging =
            some { tid := tid, block := block, count := count, lanes := data } ∧
          data.length = lanes.length ∧
          (∀ (i : Nat) (q : ReadReq) (bytes : List Byte), reads[i]? = some q → lanes[i]? = some (some bytes) →
            bytes.length = q.len → data[i]? = some (some bytes)) ∧
          (∀ i : Nat, lanes[i]? = some none → data[i]? = some none) ∧
          (t.stream k).state = (s.stream k).state ∧ (t.stream k).tag = (s.stream k).tag ∧
          (t.stream k).counters = (s.stream k).counters ∧ (t.stream k).slot0 = (s.stream k).slot0 ∧
          (t.stream k).slot1 = (s.stream k).slot1 ∧
          ((s.stream k).state = .running → (t.stream k).chain = (s.stream k).chain) ∧
          (t.stream k).ctx = (s.stream k).ctx ∧ (t.stream k).schedule = (s.stream k).schedule ∧
          ((t.stream k).taken.map fun v => (v.tid, v.start, v.staged)) =
            ((s.stream k).taken.map fun v => (v.tid, v.start, if v.tid = tid then v.staged + 1 else v.staged)) ∧
          StopWorkFollows k ({ s with fetch := none }.setStream k { s.stream k with
            staging := some { tid := tid, block := block, count := count, lanes := data }
            taken := (s.stream k).taken.map fun (v : Taken) => if v.tid = tid then { v with staged := v.staged + 1 } else v }) t) ∧
      ((∀ u : Taken, findTaken (s.stream k) tid = some u →
          (s.stream k).state ≠ .running ∧ ((s.stream k).state = .stopping → u.start = none)) →
        StopWorkFollows k { s with fetch := none } t) ∧
      ((s.stream k).state = .stopping → serving s k = false →
        ∀ v ∈ (t.stream k).taken, v.start = none → v.givingBack = true) ∧
      (∀ u : Taken, findTaken (s.stream k) tid = some u → (s.stream k).state = .stopping → u.start = none →
        ((t.stream k).staging = (s.stream k).staging ∨ (t.stream k).staging = none) ∧
        ((t.stream k).taken.map fun v => (v.tid, v.staged)) = (s.stream k).taken.map fun v => (v.tid, v.staged)) ∧
      ((s.stream k).state = .aborting ∨ (s.stream k).state = .halting →
        (t.stream k).apart = (s.stream k).apart)

/-- A take that fails at its header (R144 to R146, R125): a failed read gives DESC_FAULT, a POSTED header that fails a check
DESC_INVALID, one with the wrong sequence SEQUENCE. A stream RUNNING, in AWAIT_LINK or STOPPING halts with that code and the
sequence read as the echo, 0 when none was read (R164); in ABORTING or HALTING nothing is recorded (R126).
The checks of R145, written out: sample count, mark count and address, log capacity and address, the addresses of the
lanes the stream has, output address, profile address. -/
def Obligations.TakeFailsAtHeader : Prop :=
  (∀ (n : LaneCount) (h : Header), headerValid n h = true ↔
    ((256 ≤ h.count ∨ h.last = true ∧ 1 ≤ h.count) ∧ h.count ≤ 65536) ∧
    (h.markCount ≤ 512 ∧ (h.markCount ≠ 0 → h.marksAddr ≠ 0 ∧ h.marksAddr % 4 = 0)) ∧
    (h.logCapacity ≤ 4096 ∧ (h.logCapacity ≠ 0 → h.logAddr ≠ 0 ∧ h.logAddr % 4 = 0)) ∧
    (h.lane0 ≠ 0 ∧ h.lane0 % 4 = 0) ∧
    (n = .three → (h.lane1 ≠ 0 ∧ h.lane1 % 4 = 0) ∧ h.lane2 ≠ 0 ∧ h.lane2 % 4 = 0) ∧
    (h.outputAddr ≠ 0 ∧ h.outputAddr % 4 = 0) ∧ (h.profileAddr = 0 ∨ h.profileAddr % 64 = 0)) ∧
  (∀ (s : State) (k : StreamId) (a : Nat) (data : ReadResult) (code : Completion) (echo : Seq),
    s.fetch = some { stream := k, phase := .header a } →
    (data = none ∧ code = .descFault ∧ echo = 0 ∨
      ∃ bytes, data = some bytes ∧ bytes.length = 128 ∧ (parseHeader bytes).state = 1 ∧ echo = (parseHeader bytes).sequence ∧
        (headerValid (streamLanes (s.stream k)) (parseHeader bytes) = false ∧ code = .descInvalid ∨
          headerValid (streamLanes (s.stream k)) (parseHeader bytes) = true ∧ code = .sequence ∧
            ∃ e, (s.stream k).chain.expected = some e ∧ e ≠ (parseHeader bytes).sequence)) →
    ∃ t : State, exec (.headerReadDone data) s = .next t ∧ t.fetch = none ∧ OthersKept k s t ∧ SameStatus s t ∧
      SameEvents s t ∧ SameAround s t ∧ t.cmd = s.cmd ∧
      (recordsFailure (s.stream k).state = true → HaltsWith (takeHalt a code echo (s.stream k)) (s.stream k) (t.stream k)) ∧
      ((s.stream k).state = .aborting ∨ (s.stream k).state = .halting →
        (t.stream k).state = (s.stream k).state ∧ (t.stream k).failing = (s.stream k).failing ∧
        (t.stream k).taken = (s.stream k).taken ∧ SameHoldings (s.stream k) (t.stream k)))

/-- A header that is POSTED, passes the checks and has the expected sequence, or any when none is expected (R145 to R147):
the take goes on with the marks list, else the profile, else the ACTIVE word; a skip request for the span becomes absent
(R154).
A header that is not POSTED ends the take without failure while the stream follows its chain and no skip request names
the span (R142, R144, R149): the stream waits on the state word, whose first read is due at once (the model's reading, log
entry 10), and enters AWAIT_LINK from RUNNING when every sample taken has been voted (R121).
MARKS_READ_DONE (R23, R147): the list read is held as it stands, one mark for each entry, and the take goes on with the
profile or the ACTIVE word; a failed read fails the take with MARKS_FAULT.
TAKE_PROFILE_READ_DONE (R132, R147): the profile is held with the span and the ACTIVE word enters the write queue, in STOPPING
before a queued state word of the newest begun span (the model's reading, log entry 9); a failed read fails the take with
PROFILE_FAULT. Of a stream in ABORTING or HALTING a failed read ends the take and nothing is recorded (R126, R177). A header or a marks read that leads straight to the ACTIVE word puts it in the queue alike.
A header that is not POSTED, of a stream that no longer follows its chain, ends the take and starts nothing, and the stop work
follows (R173; the model's choice, log entry 13). -/
def Obligations.TakeGoesOnAfterReads : Prop :=
  (∀ (s : State) (k : StreamId) (a : Nat) (bytes : List Byte), s.fetch = some { stream := k, phase := .header a } →
    bytes.length = 128 → (parseHeader bytes).state = 1 →
    headerValid (streamLanes (s.stream k)) (parseHeader bytes) = true →
    ((s.stream k).chain.expected = none ∨ (s.stream k).chain.expected = some (parseHeader bytes).sequence) →
    ∃ (t : State) (p : FetchPhase), exec (.headerReadDone (some bytes)) s = .next t ∧
      t.fetch = some { stream := k, phase := p } ∧ (t.stream k).taken = (s.stream k).taken ∧
      (t.stream k).skip = (if (s.stream k).skip = some a then none else (s.stream k).skip) ∧
      (t.stream k).state = (s.stream k).state ∧ SameHoldings (s.stream k) (t.stream k) ∧
      (let h := parseHeader bytes
       (h.markCount ≠ 0 → p = .marks a h ∧ phaseReads p = [{ addr := h.marksAddr, len := 8 * h.markCount }]) ∧
       (h.markCount = 0 → h.profileAddr ≠ 0 → p = .profile a h [] ∧ phaseReads p = [{ addr := h.profileAddr, len := 64 }]) ∧
       (h.markCount = 0 → h.profileAddr = 0 → p = .active a h [] none ∧
         ∀ ahead behind : List Write, ActivePlace (s.stream k) ahead behind →
           t = drain { s.setStream k { s.stream k with
             skip := if (s.stream k).skip = some a then none else (s.stream k).skip
             queue := ahead ++ [{ addr := a, bytes := [2#8, 0#8, 0#8, 0#8], tag := .active }] ++ behind } with
               fetch := some { stream := k, phase := p } })) ∧
      OthersKept k s t ∧ SameStatus s t ∧ SameEvents s t ∧ SameAround s t ∧ t.cmd = s.cmd) ∧
  (∀ (s : State) (k : StreamId) (a : Nat) (bytes : List Byte), s.fetch = some { stream := k, phase := .header a } →
    bytes.length = 128 → (parseHeader bytes).state ≠ 1 →
    ((s.stream k).state = .running ∨ (s.stream k).state = .awaitLink) → (s.stream k).skip ≠ some a →
    ∃ t : State, exec (.headerReadDone (some bytes)) s = .next t ∧ t.fetch = none ∧
      (t.stream k).chain.wait = .state ∧ (t.stream k).readDue = true ∧ (t.stream k).taken = (s.stream k).taken ∧
      SameHoldings (s.stream k) (t.stream k) ∧ (t.stream k).position = (s.stream k).position ∧
      (t.stream k).failing = (s.stream k).failing ∧ (t.stream k).tag = (s.stream k).tag ∧
      (t.stream k).state = (if (s.stream k).state = .running ∧ serving s k = false ∧ allVoted (s.stream k) = true
        then .awaitLink else (s.stream k).state) ∧
      OthersKept k s t ∧ SameStatus s t ∧ SameEvents s t ∧ SameAround s t ∧ t.cmd = s.cmd) ∧
  (∀ (s : State) (k : StreamId) (a : Nat) (bytes : List Byte), s.fetch = some { stream := k, phase := .header a } →
    bytes.length = 128 → (parseHeader bytes).state ≠ 1 → (s.stream k).state ≠ .running → (s.stream k).state ≠ .awaitLink →
    ∃ t : State, exec (.headerReadDone (some bytes)) s = .next t ∧ t.fetch = none ∧ StopWorkFollows k s t ∧
      OthersKept k s t ∧ SameStatus s t ∧ SameAround s t ∧ t.cmd = s.cmd) ∧
  (∀ (s : State) (k : StreamId) (a : Nat) (h : Header), s.fetch = some { stream := k, phase := .marks a h } →
    (∀ bytes : List Byte, bytes.length = 8 * h.markCount → ∃ (t : State) (marks : List Mark),
      exec (.marksReadDone (some bytes)) s = .next t ∧ marks.length = h.markCount ∧
      (∀ (i : Nat) (m : Mark), marks[i]? = some m → m.offset = fieldAt bytes (8 * i) 4 ∧
        m.frameStart = (fieldAt bytes (8 * i + 4) 4).testBit 0 ∧ m.protect = (fieldAt bytes (8 * i + 4) 4).testBit 1 ∧
        m.hissRef = (fieldAt bytes (8 * i + 4) 4).testBit 2 ∧ m.splice = (fieldAt bytes (8 * i + 4) 4).testBit 3) ∧
      t.fetch = some { stream := k, phase := if h.profileAddr = 0 then .active a h marks none else .profile a h marks } ∧
      (t.stream k).apart = (s.stream k).apart ∧
      (h.profileAddr = 0 → ∀ ahead behind : List Write, ActivePlace (s.stream k) ahead behind →
        t = drain { s.setStream k { s.stream k with
          queue := ahead ++ [{ addr := a, bytes := [2#8, 0#8, 0#8, 0#8], tag := .active }] ++ behind } with
            fetch := some { stream := k, phase := .active a h marks none } }) ∧
      OthersKept k s t ∧ SameStatus s t ∧ SameAround s t ∧ t.cmd = s.cmd) ∧
    (recordsFailure (s.stream k).state = true → ∃ t : State, exec (.marksReadDone none) s = .next t ∧ t.fetch = none ∧
      HaltsWith (takeHalt a .marksFault h.sequence (s.stream k)) (s.stream k) (t.stream k) ∧ OthersKept k s t ∧
      SameStatus s t ∧ SameAround s t) ∧
    (recordsFailure (s.stream k).state = false → exec (.marksReadDone none) s = .next (drain { s with fetch := none }))) ∧
  (∀ (s : State) (k : StreamId) (a : Nat) (h : Header) (marks : List Mark),
    s.fetch = some { stream := k, phase := .profile a h marks } →
    (∀ (bytes : List Byte) (ahead behind : List Write), bytes.length = 64 → ActivePlace (s.stream k) ahead behind →
      exec (.takeProfileReadDone (some bytes)) s = .next (drain { s.setStream k { s.stream k with
          queue := ahead ++ [{ addr := a, bytes := [2#8, 0#8, 0#8, 0#8], tag := .active }] ++ behind } with
        fetch := some { stream := k, phase := .active a h marks (some (parseProfile bytes)) } })) ∧
    (recordsFailure (s.stream k).state = true → ∃ t : State, exec (.takeProfileReadDone none) s = .next t ∧
      t.fetch = none ∧ HaltsWith (takeHalt a .profileFault h.sequence (s.stream k)) (s.stream k) (t.stream k) ∧
      OthersKept k s t ∧ SameStatus s t ∧ SameAround s t) ∧
    (recordsFailure (s.stream k).state = false →
      exec (.takeProfileReadDone none) s = .next (drain { s with fetch := none })))

/-- WAIT_READ_DONE for a stream that follows its chain (R149, R150): a link of 0, a state word that is not POSTED, or a failed
read continues the wait and starts the timer with the interval POLLIV holds, unless a POLL asked for a further read, which is
then due; a RUNNING stream with every sample taken voted enters AWAIT_LINK (R121, R127), and every other stays in its state.
POSTED, or a nonzero link with no bypass entry, begins a take (in the same transaction for a link: the model's reading, log
entry 11), which fails with DESC_INVALID, without a read, at a link that is not 64-byte aligned (R144).
WAIT_READ_DONE of a stream that no longer follows its chain, or of a read that was in progress when it left RUNNING and AWAIT_LINK,
starts nothing further, whatever it found, and in STOPPING the stop work follows (R123, R173; the model's reading, log entry
17); CLOSED, the stream's chain context is emptied (R128; log entry 19).
POLL_TIMER_EXPIRY (R150): a running timer stops and the next wait read is due, whatever ENABLE is. The model's choice (log
entry 5): with no timer running nothing changes. -/
def Obligations.WaitReadsAndTimers : Prop :=
  (∀ (s : State) (k : StreamId) (target : WaitTarget) (a : Nat) (data : ReadResult),
      s.fetch = some { stream := k, phase := .wait target a false false } →
      ((s.stream k).state = .running ∨ (s.stream k).state = .awaitLink) →
      (data = none ∨
        (∃ bytes, data = some bytes ∧ target = .link ∧ bytes.length = 8 ∧ leNat bytes = 0) ∨
        (∃ bytes, data = some bytes ∧ target = .state ∧ bytes.length = 4 ∧ leNat bytes ≠ 1) →
        ∃ t : State, exec (.waitReadDone data) s = .next t ∧ t.fetch = none ∧
          (t.stream k).timer = (if (s.stream k).pollAgain = true then none else some s.polliv.toNat) ∧
          (t.stream k).readDue = (s.stream k).pollAgain ∧ (t.stream k).chain.wait = (s.stream k).chain.wait ∧
          (t.stream k).position = (s.stream k).position ∧ (t.stream k).failing = (s.stream k).failing ∧
          (t.stream k).state = (if (s.stream k).state = .running ∧ serving s k = false ∧ allVoted (s.stream k) = true
            then .awaitLink else (s.stream k).state) ∧ (t.stream k).tag = (s.stream k).tag ∧
          SameHoldings (s.stream k) (t.stream k) ∧ (t.stream k).taken = (s.stream k).taken ∧
          OthersKept k s t ∧ SameStatus s t ∧ SameEvents s t ∧ SameAround s t) ∧
      (∀ (bytes : List Byte) (b : Nat), target = .link → bytes.length = 8 → leNat bytes = b → b % 64 ≠ 0 →
        (∀ e ∈ (s.stream k).chain.bypass, e.preceding ≠ a) → data = some bytes →
        ∃ t : State, exec (.waitReadDone data) s = .next t ∧ t.fetch = none ∧
          HaltsWith (takeHalt b .descInvalid 0 (s.stream k)) { s.stream k with
            position := .span b
            chain := { (s.stream k).chain with
              anchor := (s.stream k).chain.anchor.map fun c => { c with link := b } } } (t.stream k) ∧
          OthersKept k s t ∧ SameStatus s t ∧ SameEvents s t ∧ SameAround s t) ∧
      (∀ (bytes : List Byte) (b : Nat), b % 64 = 0 →
        (target = .state ∧ bytes.length = 4 ∧ leNat bytes = 1 ∧ b = a ∨
          target = .link ∧ bytes.length = 8 ∧ leNat bytes = b ∧ b ≠ 0 ∧
            ∀ e ∈ (s.stream k).chain.bypass, e.preceding ≠ a) →
        data = some bytes →
        ∃ t : State, exec (.waitReadDone data) s = .next t ∧ t.fetch = some { stream := k, phase := .header b } ∧
          (t.stream k).position = .span b ∧ (t.stream k).timer = none ∧ (t.stream k).chain.wait = .none ∧
          SameHoldings (s.stream k) (t.stream k) ∧ (t.stream k).taken = (s.stream k).taken ∧ (t.stream k).state = (s.stream k).state ∧
          OthersKept k s t ∧ SameStatus s t ∧ SameEvents s t ∧ SameAround s t)) ∧
  (∀ (s : State) (k : StreamId) (target : WaitTarget) (a : Nat) (whole stale : Bool) (data : ReadResult),
    s.fetch = some { stream := k, phase := .wait target a whole stale } →
    (stale = true ∨ (s.stream k).state ≠ .running ∧ (s.stream k).state ≠ .awaitLink) →
    ∃ t : State, exec (.waitReadDone data) s = .next t ∧ t.fetch = none ∧
      ((s.stream k).state ≠ .closed → StopWorkFollows k s t) ∧
      ((s.stream k).state = .closed → (t.stream k).state = .closed ∧
        (t.stream k).chain = { anchor := none, expected := none, wait := .none, bypass := [] } ∧ SameEvents s t ∧
        (∀ c, (s.stream k).chain.anchor = some c → c.finished = true → (t.stream k).owed = (s.stream k).owed ∧
          UnderWay t k { addr := c.addr, bytes := [4#8, 0#8, 0#8, 0#8], tag := .anchorRelease .close c.sequence }) ∧
        ((∀ c, (s.stream k).chain.anchor = some c → c.finished = false) → ∀ p st, (s.stream k).progressAddr = some p →
          st ∈ (s.stream k).owed → UnderWay t k (recordWrite k { s.stream k with state := st } p))) ∧
      OthersKept k s t ∧ SameStatus s t ∧ SameAround s t ∧ t.cmd = s.cmd) ∧
  (∀ (s : State) (k : StreamId),
    ((s.stream k).timer ≠ none → exec (.pollTimerExpiry k) s =
      .next (s.setStream k { s.stream k with timer := none, readDue := true })) ∧
    ((s.stream k).timer = none → exec (.pollTimerExpiry k) s = .next s))

/-- The start of a skip, at a take's own header read or at a wait read of the whole header, when the skip request names the span
(R142, R154). FAILED with a nonzero next-link: SKIPPED and then RELEASED enter the write queue and the wait ends. FAILED with
next-link 0, or a word that is neither POSTED nor FAILED: the stream waits on the state word and the request stays; so it does
after a failed re-read, which fails no span. A wait read that finds POSTED begins a take. The model's readings: the first read of
a wait that a take's header begins is due at once (log entry 10), and the request stays until the take's own header read (log
entry 39). At an anchor that the request names, the header read gives the next-link alone: 0 or a failed read continues the link
wait, a nonzero link with no bypass entry begins a take there, and the request stays (log entries 11 and 46), but for a link that
is not 64-byte aligned, which fails with DESC_INVALID (R144). -/
def Obligations.SkipBegins : Prop :=
  ∀ (s : State) (k : StreamId) (a : Nat), (s.stream k).skip = some a →
    ((s.stream k).state = .running ∨ (s.stream k).state = .awaitLink) →
    (∀ (c : Instr) (bytes : List Byte), bytes.length = 128 → (parseHeader bytes).state = 5 → (parseHeader bytes).link ≠ 0 →
      (s.fetch = some { stream := k, phase := .header a } ∧ c = .headerReadDone (some bytes) ∨
        s.fetch = some { stream := k, phase := .wait .state a true false } ∧ c = .waitReadDone (some bytes)) →
      exec c s = .next (drain { s.setStream k { s.stream k with
          chain := { (s.stream k).chain with wait := .none }, timer := none, readDue := false, pollAgain := false
          queue := (s.stream k).queue ++
            [{ addr := a + 0x80, bytes := [1#8, 0#8, 0#8, 0#8], tag := .skipCode },
             { addr := a, bytes := [4#8, 0#8, 0#8, 0#8], tag := .skipReleased }] } with
        fetch := some { stream := k, phase := .skip a (parseHeader bytes) } })) ∧
    (∀ (c : Instr) (data : ReadResult),
      (data = none ∨ ∃ bytes, data = some bytes ∧ bytes.length = 128 ∧ (parseHeader bytes).state ≠ 1 ∧
        ((parseHeader bytes).state = 5 → (parseHeader bytes).link = 0)) →
      (s.fetch = some { stream := k, phase := .header a } ∧ data ≠ none ∧ c = .headerReadDone data ∨
        s.fetch = some { stream := k, phase := .wait .state a true false } ∧ c = .waitReadDone data) →
      ∃ t : State, exec c s = .next t ∧ t.fetch = none ∧ (t.stream k).skip = some a ∧
        (t.stream k).failing = (s.stream k).failing ∧ (t.stream k).taken = (s.stream k).taken ∧
        (t.stream k).position = (s.stream k).position ∧ SameHoldings (s.stream k) (t.stream k) ∧
        (t.stream k).tag = (s.stream k).tag ∧
        (t.stream k).state = (if (s.stream k).state = .running ∧ serving s k = false ∧ allVoted (s.stream k) = true
          then .awaitLink else (s.stream k).state) ∧
        (c = .headerReadDone data → (t.stream k).chain.wait = .state ∧ (t.stream k).readDue = true) ∧
        (c = .waitReadDone data → (t.stream k).chain.wait = (s.stream k).chain.wait ∧
          (t.stream k).readDue = (s.stream k).pollAgain ∧
          (t.stream k).timer = (if (s.stream k).pollAgain = true then none else some s.polliv.toNat)) ∧
        OthersKept k s t ∧ SameStatus s t ∧ SameEvents s t ∧ SameAround s t ∧ t.cmd = s.cmd) ∧
    (∀ bytes : List Byte, bytes.length = 128 → (parseHeader bytes).state = 1 → a % 64 = 0 →
      s.fetch = some { stream := k, phase := .wait .state a true false } →
      ∃ t : State, exec (.waitReadDone (some bytes)) s = .next t ∧
        t.fetch = some { stream := k, phase := .header a } ∧ (t.stream k).skip = some a ∧
        (t.stream k).position = .span a ∧ (t.stream k).timer = none ∧ (t.stream k).chain.wait = .none ∧
        (t.stream k).taken = (s.stream k).taken ∧ SameHoldings (s.stream k) (t.stream k) ∧
        OthersKept k s t ∧ SameStatus s t ∧ SameEvents s t ∧ SameAround s t ∧ t.cmd = s.cmd) ∧
    (s.fetch = some { stream := k, phase := .wait .link a true false } →
      (∀ data : ReadResult, (data = none ∨ ∃ bytes, data = some bytes ∧ bytes.length = 128 ∧ (parseHeader bytes).link = 0) →
        ∃ t : State, exec (.waitReadDone data) s = .next t ∧ t.fetch = none ∧ (t.stream k).skip = some a ∧
          (t.stream k).chain = (s.stream k).chain ∧ (t.stream k).position = (s.stream k).position ∧
          (t.stream k).state = (if (s.stream k).state = .running ∧ serving s k = false ∧ allVoted (s.stream k) = true
            then .awaitLink else (s.stream k).state) ∧
          (t.stream k).readDue = (s.stream k).pollAgain ∧
          (t.stream k).timer = (if (s.stream k).pollAgain = true then none else some s.polliv.toNat) ∧
          OthersKept k s t ∧ SameStatus s t ∧ SameEvents s t ∧ SameAround s t ∧ t.cmd = s.cmd) ∧
      (∀ bytes : List Byte, bytes.length = 128 → (parseHeader bytes).link ≠ 0 → (parseHeader bytes).link % 64 = 0 →
        (∀ e ∈ (s.stream k).chain.bypass, e.preceding ≠ a) →
        ∃ t : State, exec (.waitReadDone (some bytes)) s = .next t ∧
          t.fetch = some { stream := k, phase := .header (parseHeader bytes).link } ∧ (t.stream k).skip = some a ∧
          (t.stream k).position = .span (parseHeader bytes).link ∧ (t.stream k).timer = none ∧
          (t.stream k).chain.wait = .none ∧ (t.stream k).state = (s.stream k).state ∧
          OthersKept k s t ∧ SameStatus s t ∧ SameEvents s t ∧ SameAround s t ∧ t.cmd = s.cmd) ∧
      (∀ bytes : List Byte, bytes.length = 128 → (parseHeader bytes).link % 64 ≠ 0 →
        (∀ e ∈ (s.stream k).chain.bypass, e.preceding ≠ a) →
        ∃ t : State, exec (.waitReadDone (some bytes)) s = .next t ∧ t.fetch = none ∧ (t.stream k).state = .halting ∧
          (t.stream k).failing = some { addr := (parseHeader bytes).link, code := .descInvalid } ∧
          (t.stream k).skip = none ∧ (t.stream k).position = .span (parseHeader bytes).link ∧
          (t.stream k).chain.wait = .none ∧ (t.stream k).taken = (s.stream k).taken ∧
          OthersKept k s t ∧ SameStatus s t ∧ SameEvents s t ∧ SameAround s t ∧ t.cmd = s.cmd))

/-- A link that a bypass entry of the anchor names is passed over (R195): the take begins at the entry's recorded next-link
with the entry's sequence + 1 expected and nothing is queued; a different link drops the entry and is followed.
So at FETCH_GRANT for an anchor whose snapshot holds the link, and at WAIT_READ_DONE of a link wait, which keeps the link in the
snapshot (R141, R148, R149; in the same transaction, log entry 11; with the whole header read at the skip request, log entry 46). A
take at an address that is not 64-byte aligned, the recorded next-link included, fails with DESC_INVALID without a read (R144). -/
def Obligations.BypassedLinkPassedOver : Prop :=
  (∀ (s : State) (k : StreamId) (anchor link : Nat) (b : Bypass), bypassOf (s.stream k).chain anchor = some b →
    (b.skipped = link → b.link % 64 = 0 → (followLink k anchor link s).fetch =
        some { stream := k, phase := .header b.link } ∧
      ((followLink k anchor link s).stream k).position = .span b.link ∧
      ((followLink k anchor link s).stream k).chain.expected = some (b.sequence + 1) ∧
      ((followLink k anchor link s).stream k).queue = (s.stream k).queue ∧
      bypassOf ((followLink k anchor link s).stream k).chain anchor = some b) ∧
    (b.skipped ≠ link → link % 64 = 0 → (followLink k anchor link s).fetch =
        some { stream := k, phase := .header link } ∧
      ((followLink k anchor link s).stream k).chain.expected = (s.stream k).chain.expected ∧
      bypassOf ((followLink k anchor link s).stream k).chain anchor = none)) ∧
  ∀ (c : Instr) (s : State) (k : StreamId) (a link target : Nat) (b : Bypass) (snapshot : Option Anchor),
    bypassOf (s.stream k).chain a = some b → link ≠ 0 → target = (if b.skipped = link then b.link else link) →
    (c = .fetchGrant ∧ s.enable = true ∧ s.fetch = none ∧ firstAfter s.fetchLast (requests s) = some k ∧
        needsOpenRead (s.stream k) = false ∧ needsLaneRead (s.stream k) = false ∧ (s.stream k).position = .anchor a ∧
        (s.stream k).chain.wait = .none ∧ anchorLink (s.stream k) = link ∧ snapshot = (s.stream k).chain.anchor ∨
      ((s.stream k).state = .running ∨ (s.stream k).state = .awaitLink) ∧
        snapshot = (s.stream k).chain.anchor.map (fun d => { d with link := link }) ∧
        ∃ bytes : List Byte, c = .waitReadDone (some bytes) ∧
          (s.fetch = some { stream := k, phase := .wait .link a false false } ∧ bytes.length = 8 ∧ leNat bytes = link ∨
            s.fetch = some { stream := k, phase := .wait .link a true false } ∧ bytes.length = 128 ∧
              (parseHeader bytes).link = link)) →
    ∃ t : State, exec c s = .next t ∧ (t.stream k).position = .span target ∧ (t.stream k).chain.wait = .none ∧
      (t.stream k).timer = none ∧ (t.stream k).chain.anchor = snapshot ∧
      (t.stream k).chain.expected = (if b.skipped = link then some (b.sequence + 1) else (s.stream k).chain.expected) ∧
      (t.stream k).chain.bypass = (if b.skipped = link then (s.stream k).chain.bypass
        else (s.stream k).chain.bypass.filter fun e => !decide (e.preceding = a)) ∧
      (target % 64 = 0 → t.fetch = some { stream := k, phase := .header target } ∧
        (t.stream k).state = (s.stream k).state ∧ (t.stream k).failing = (s.stream k).failing ∧
        (t.stream k).skip = (s.stream k).skip ∧ (t.stream k).queue <:+ (s.stream k).queue) ∧
      (target % 64 ≠ 0 → t.fetch = none ∧ (t.stream k).state = .halting ∧ (t.stream k).skip = none ∧
        (t.stream k).failing = some { addr := target, code := .descInvalid }) ∧
      (t.stream k).taken = (s.stream k).taken ∧ (t.stream k).tag = (s.stream k).tag ∧
      SameHoldings (s.stream k) (t.stream k) ∧ OthersKept k s t ∧ SameStatus s t ∧ SameEvents s t ∧ SameAround s t ∧
      t.cmd = s.cmd

/-- ENTRY_READ_DONE (R118, R119, R187): an entry that passes every check leads to the profile read and is held as read; a
failed read sets TABLE_FAULT and closes the stream; an entry that fails a check closes it with ENTRY_INVALID, ATTENTION is
latched and, with no usable progress address, TABLE_FAULT is set; with a usable one the progress record of the failure is handed
over to it, with CLOSED and ENTRY_INVALID (R119, R131; its chain position is the model's choice, log entry 41). -/
def Obligations.EntryReadJudged : Prop :=
  ∀ (s : State) (k : StreamId) (a : Nat), s.fetch = some { stream := k, phase := .entry a } →
    (∀ bytes : List Byte, bytes.length = 64 →
      (fieldAt bytes 0 1 = 1 ∨ fieldAt bytes 0 1 = 3) → fieldAt bytes 1 1 ≤ 1 → fieldAt bytes 2 1 ≤ 1 →
      fieldAt bytes 3 1 ≤ 1 → fieldAt bytes 4 1 ≤ 1 → fieldAt bytes 0x08 8 ≠ 0 → fieldAt bytes 0x10 8 ≠ 0 →
      fieldAt bytes 0x10 8 % 64 = 0 → fieldAt bytes 0x18 8 ≠ 0 → fieldAt bytes 0x18 8 % 64 = 0 →
      ∃ e : ReelEntry, exec (.entryReadDone (some bytes)) s =
          .next { s with fetch := some { stream := k, phase := .openProfile e } } ∧
        e.head = fieldAt bytes 0x08 8 ∧ e.profileAddr = fieldAt bytes 0x10 8 ∧ e.progressAddr = fieldAt bytes 0x18 8 ∧
        (e.config.laneCount = .one ↔ fieldAt bytes 0 1 = 1) ∧ (e.config.laneFormat = .l16 ↔ fieldAt bytes 1 1 = 0) ∧
        (e.config.laneOrder = .little ↔ fieldAt bytes 2 1 = 0) ∧ (e.config.outputFormat = .l16 ↔ fieldAt bytes 3 1 = 0) ∧
        (e.config.outputOrder = .little ↔ fieldAt bytes 4 1 = 0)) ∧
    (∀ data : ReadResult, data = none ∨ (∃ bytes, data = some bytes ∧ bytes.length = 64 ∧
        (fieldAt bytes 0 1 ≠ 1 ∧ fieldAt bytes 0 1 ≠ 3 ∨ 2 ≤ fieldAt bytes 1 1 ∨ 2 ≤ fieldAt bytes 2 1 ∨
          2 ≤ fieldAt bytes 3 1 ∨ 2 ≤ fieldAt bytes 4 1 ∨ fieldAt bytes 0x08 8 = 0 ∨ fieldAt bytes 0x10 8 = 0 ∨
          fieldAt bytes 0x10 8 % 64 ≠ 0 ∨ fieldAt bytes 0x18 8 = 0 ∨ fieldAt bytes 0x18 8 % 64 ≠ 0)) →
      ∃ t : State, exec (.entryReadDone data) s = .next t ∧ (t.stream k).state = .closed ∧ t.fetch = none ∧
        (t.stream k).tag = (s.stream k).tag ∧ (t.stream k).counters = (s.stream k).counters ∧
        (t.stream k).ctx = (s.stream k).ctx ∧ latched t.evlatch .attention = true ∧ OthersKept k s t ∧ t.cmd = s.cmd ∧
        (t.stream k).openCode = (if data = none then (s.stream k).openCode else some .entryInvalid) ∧
        ((data = none ∨ ∃ bytes, data = some bytes ∧
            (fieldAt bytes 0x18 8 = 0 ∨ fieldAt bytes 0x18 8 % 64 ≠ 0)) →
          t.faults = s.faults ||| 0b0001#4 ∧ t.lastFault.toNat = k.val) ∧
        (∀ bytes, data = some bytes → fieldAt bytes 0x18 8 ≠ 0 → fieldAt bytes 0x18 8 % 64 = 0 → SameStatus s t ∧
          UnderWay t k (recordWrite k { s.stream k with state := .closed, openCode := some .entryInvalid }
            (fieldAt bytes 0x18 8))))

/-- OPEN_PROFILE_READ_DONE (R119, R120): a failed read closes the stream with PROFILE_FAULT and ATTENTION; otherwise the
stream is RUNNING at the head address with the whole fresh signal context of R114: every part fresh on the limited profile, the
configuration the entry's, no report tallies, and the pending clamp mark set when a field was limited (R132). No expectation, no
failing-span record, counters 0 and its tag kept. Either way the progress record of the new state is handed over to the entry's
progress address (R119, R120, R131; the chain position of a failure's record is the model's choice, log entry 41). -/
def Obligations.OpenProfileOpensStream : Prop :=
  ∀ (s : State) (k : StreamId) (e : ReelEntry), s.fetch = some { stream := k, phase := .openProfile e } →
    (∃ t : State, exec (.openProfileReadDone none) s = .next t ∧ (t.stream k).state = .closed ∧
      (t.stream k).openCode = some .profileFault ∧ (t.stream k).tag = (s.stream k).tag ∧ t.fetch = none ∧
      (t.stream k).ctx = (s.stream k).ctx ∧ (t.stream k).counters = (s.stream k).counters ∧
      UnderWay t k (recordWrite k { s.stream k with state := .closed, openCode := some .profileFault } e.progressAddr) ∧
      latched t.evlatch .attention = true ∧ OthersKept k s t ∧ SameStatus s t) ∧
    ∀ bytes : List Byte, bytes.length = 64 → ∃ (t : State) (ctx : SignalContext),
      exec (.openProfileReadDone (some bytes)) s = .next t ∧ (t.stream k).ctx = some ctx ∧
      FreshBy (limitProfile (parseProfile bytes)) ctx ∧ ctx.config = e.config ∧ ctx.tallies = [] ∧
      ctx.pendingClamp = decide (limitProfile (parseProfile bytes) ≠ parseProfile bytes) ∧
      (t.stream k).state = .running ∧ (t.stream k).position = .span e.head ∧
      (t.stream k).progressAddr = some e.progressAddr ∧ (t.stream k).chain.expected = none ∧
      (t.stream k).failing = none ∧ (t.stream k).skip = none ∧ (t.stream k).openCode = none ∧
      (t.stream k).counters = { lastAddr := 0, lastSeq := 0, released := 0, samples := 0 } ∧
      ((s.stream k).owed = [] → UnderWay t k (recordWrite k (t.stream k) e.progressAddr)) ∧
      (t.stream k).tag = (s.stream k).tag ∧ t.fetch = none ∧ OthersKept k s t ∧ SameStatus s t ∧ SameEvents s t

/-! ## The Restoration Engine -/

/-- A span begins (R133, R135): its checkpoint is the whole live context as it stood, in the lower free slot, and the list
records the slot and the position of the span's first sample; the other slot stays. Its mark schedule is built then (R25), and
nothing else of the stream changes.
The context as a span's first sample is voted (R114, R133): after a LAST span every part is fresh but the configuration, on the
span's profile limited or else the profile in force, and the tallies are the span's alone. Its tallies open with its first position, its
sample count, its log capacity, its ignored marks and every other count 0 (R156, R157). Within a reel a profile the span names
is applied (R41, R56, R62, R91): a new line period zeroes the line template and its counter, the noise level is clamped to the new
range, and the hiss parameters are set pending. The pending clamp mark is cleared and shown in the span's tallies with the clamps
of the span's own profile; RESET_HUM acts, and FRESH_LANES, which keeps the prediction history (R22). -/
def Obligations.SpanStart : Prop :=
  (∀ (t : Taken) (x : Stream) (ctx : SignalContext), x.ctx = some ctx →
    (x.slot0 = none → (beginSpan t x).slot0 = some { ctx := ctx, span := t.addr } ∧ (beginSpan t x).slot1 = x.slot1) ∧
    (x.slot0 ≠ none → (beginSpan t x).slot1 = some { ctx := ctx, span := t.addr } ∧ (beginSpan t x).slot0 = x.slot0) ∧
    (∀ u ∈ (beginSpan t x).taken, u.tid = t.tid →
      u.slot = some x.slot0.isSome ∧ u.start = some (if ctx.reelEnd = true then 0 else ctx.position)) ∧
    beginSpan t x = { x with
      slot0 := (beginSpan t x).slot0, slot1 := (beginSpan t x).slot1, ctx := some (startSpan t ctx)
      schedule := some (buildSchedule (startSpan t ctx).position t.header.count t.marks)
      taken := x.taken.map fun u => if u.tid = t.tid then
        { u with start := some (startSpan t ctx).position, slot := some x.slot0.isSome } else u }) ∧
  (∀ (t : Taken) (ctx : SignalContext),
    (startSpan t ctx).reelEnd = false ∧ (startSpan t ctx).pendingClamp = false ∧
    (startSpan t ctx).config = ctx.config ∧
    (startSpan t ctx).profile = (match t.profile with | none => ctx.profile | some p => limitProfile p) ∧
    (∃ y : Tally, (startSpan t ctx).tallies = (if ctx.reelEnd = true then [] else ctx.tallies) ++ [y] ∧
      y.start = (startSpan t ctx).position ∧ y.count = t.header.count ∧ y.capacity = t.header.logCapacity ∧
      y.samplesOutput = 0 ∧ y.logWritten = 0 ∧ y.logLost = 0 ∧ y.clickWindows = 0 ∧ y.voidWindows = 0 ∧
      y.spliceWindows = 0 ∧ y.protectedWindows = 0 ∧ y.longWindows = 0 ∧ y.repaired = 0 ∧ y.voidRepaired = 0 ∧
      y.voidPassed = 0 ∧ y.disputed = 0 ∧ y.unresolved = 0 ∧ y.fetchFailed = 0 ∧ y.fetchVoid = 0 ∧
      y.phaseOverruns = 0 ∧ y.humClamps = 0 ∧ y.saturations = 0 ∧ y.retirements = 0 ∧ y.reinstatements = 0 ∧
      y.votedCrc = 0xFFFFFFFF#32 ∧ y.outputCrc = 0xFFFFFFFF#32 ∧
      y.mask = none ∧ y.thEnd = none ∧ y.marksIgnored = marksIgnored t.header.count t.marks ∧
      (y.clamped = true ↔ ctx.pendingClamp = true ∨ ∃ p, t.profile = some p ∧ limitProfile p ≠ p)) ∧
    (t.header.freshLanes = true → (startSpan t ctx).lanes.retired = none ∧ (startSpan t ctx).lanes.counter = 0 ∧
      (∀ l : Lane, (startSpan t ctx).lanes.counts[l] = 0) ∧
      (ctx.reelEnd = false → (startSpan t ctx).lanes.history = ctx.lanes.history)) ∧
    (t.header.resetHum = true → (startSpan t ctx).hum = { perf := { cells := [] }, line := { cells := [] }, counter := 0 }) ∧
    (ctx.reelEnd = true → FreshBy (startSpan t ctx).profile (startSpan t ctx)) ∧
    (ctx.reelEnd = false → ∀ q : Profile, t.profile = some q →
      (startSpan t ctx).click = { ctx.click with
        noise := max (16 * ((limitProfile q).noiseMin : Int)) (min (16 * 8388607) ctx.click.noise) } ∧
      (startSpan t ctx).hiss = { ctx.hiss with pendingParams := some (hissParams (limitProfile q)) } ∧
      (startSpan t ctx).marks = ctx.marks ∧ (startSpan t ctx).position = ctx.position ∧
      (t.header.freshLanes = false → (startSpan t ctx).lanes = ctx.lanes) ∧
      (t.header.resetHum = false → (startSpan t ctx).hum =
        if (limitProfile q).linePeriod = ctx.profile.linePeriod then ctx.hum
        else { perf := ctx.hum.perf, line := { cells := [] }, counter := 0 })) ∧
    (ctx.reelEnd = false → t.profile = none → (startSpan t ctx).click = ctx.click ∧ (startSpan t ctx).hiss = ctx.hiss ∧
      (startSpan t ctx).marks = ctx.marks ∧ (startSpan t ctx).position = ctx.position ∧
      (t.header.freshLanes = false → (startSpan t ctx).lanes = ctx.lanes) ∧
      (t.header.resetHum = false → (startSpan t ctx).hum = ctx.hum)) ∧
    (ctx.reelEnd = false → t.profile = none → t.header.freshLanes = false → t.header.resetHum = false →
      startSpan t ctx = { ctx with reelEnd := false, pendingClamp := false, tallies := (startSpan t ctx).tallies }))

/-- ENGINE_GRANT of a staged block (R6, R133, R168): its samples, decoded row by row, run through the stages in order on the
stream's signal context; block 0 first begins its span, and the mark schedule built there is held for the span's later blocks and
discarded with its last (R25, R27); the rows number the block's samples and row i holds the i-th sample of every lane, lane 0 first
(R2, R3, R7); failed lane reads are counted for the span and give voids of origin FETCH;
the context, the lane changes and the span's processed blocks are those of the run, and the checkpoints stay as the span's start left
them (R135; log entry 49 for the lanes a record shows meanwhile). What the run hands on enters the write queue
in order (R85, R105, R163, R176): a container at the span's output address, a log entry in its slot, and for a complete span its
report and then its state word, its list entry keeping its final tallies (R164); for a span that has finished before, nothing (R138). A granted stop flush runs at the last sample
of the newest begun span, and what it hands on enters the write queue likewise (R83). The oldest span is complete, and its tallies
leave the context, when its last sample has been released and no window that began in it is open, and a replayed span whatever window is open (R81, R107, R156). The model's
readings: the work of a grant is done at the grant (log entry 4), failed lane reads are counted then (log entry 23), a complete
span's report and its state word, without a value yet, are queued together (log entry 9), and a span waits for a LONG window (log
entry 38). -/
def Obligations.GrantedBlockRunsStages : Prop :=
  (∀ (s : State) (k : StreamId) (st : Staged) (u : Taken) (c : SignalContext) (start : Nat) (sched : Schedule),
    s.enable = true → s.engine = none → firstAfter s.engineLast (ready s) = some k →
    (s.stream k).staging = some st → (blockReady (s.stream k) = true ∨ stoppingReady (s.stream k) = true) →
    findTaken (s.stream k) st.tid = some u →
    (if st.block = 0 then ∃ ctx, (s.stream k).ctx = some ctx ∧ c = startSpan u ctx ∧ start = c.position ∧
        sched = buildSchedule start u.header.count u.marks
      else (s.stream k).ctx = some c ∧ u.start = some start ∧ (s.stream k).schedule = some sched) →
    let sp : SpanInfo :=
      { start := start, count := u.header.count, last := u.header.last, protectAll := u.header.protectAll, sched := sched }
    let r := (blockRows c.config st.count st.lanes).foldl (sampleStep sp)
      { ctx := { c with tallies := onTally start (countFetch st.count st.lanes) c.tallies }
        live := liveStarts (if st.block = 0 then beginSpan u (s.stream k) else s.stream k), emits := [], laneChanges := 0 }
    ∃ x : Stream, exec .engineGrant s = .next (drain { s.setStream k x with
        engine := some { stream := k, laneChanges := r.laneChanges }, engineLast := k }) ∧
      (∀ base handed : Stream, base = (if st.block = 0 then beginSpan u (s.stream k) else s.stream k) →
        handed = r.emits.foldl handOver base → x.slot0 = base.slot0 ∧ x.slot1 = base.slot1 ∧
        x = { handed with
          ctx := some r.ctx, staging := none
          schedule := if u.processed + 1 = (u.header.count + 1023) / 1024 then none else some sched
          taken := handed.taken.map fun v => if v.tid = st.tid then { v with processed := v.processed + 1 } else v }) ∧
      x.state = (s.stream k).state ∧ x.tag = (s.stream k).tag ∧ x.position = (s.stream k).position ∧
      x.chain = (s.stream k).chain ∧ x.counters = (s.stream k).counters ∧ x.takes = (s.stream k).takes ∧
      ((x.taken.map fun v => (v.addr, v.header, v.marks, v.profile, v.expBefore, v.staged, v.givingBack)) =
        (s.stream k).taken.map fun v => (v.addr, v.header, v.marks, v.profile, v.expBefore, v.staged, v.givingBack)) ∧
      (x.taken.map fun v => (v.tid, v.processed)) =
        (s.stream k).taken.map fun v => (v.tid, if v.tid = st.tid then v.processed + 1 else v.processed)) ∧
  (∀ (n : Nat) (lanes : List ReadResult) (y : Tally),
    (countFetch n lanes y).fetchFailed = y.fetchFailed + lanes.count none ∧
    (countFetch n lanes y).fetchVoid = y.fetchVoid + lanes.count none * n) ∧
  (∀ (cfg : StreamConfig) (n : Nat), laneSamples cfg n none = List.replicate n (.void .fetch) ∧
    (∀ bytes : List Byte, laneSamples cfg n (some bytes) = decodeContainers cfg bytes) ∧
    (cfg.laneCount = .one → ∀ a : ReadResult, LaneFits cfg n a → (blockRows cfg n [a]).length = n ∧
      ∀ i : Nat, (blockRows cfg n [a])[i]? = (laneSamples cfg n a)[i]?.map .one) ∧
    (cfg.laneCount = .three → ∀ a b c : ReadResult, LaneFits cfg n a → LaneFits cfg n b → LaneFits cfg n c →
      (blockRows cfg n [a, b, c]).length = n ∧
      ∀ (i : Nat) (x y z : Sample), (laneSamples cfg n a)[i]? = some x → (laneSamples cfg n b)[i]? = some y →
        (laneSamples cfg n c)[i]? = some z → (blockRows cfg n [a, b, c])[i]? = some (.three x y z))) ∧
  (∀ (cfg : StreamConfig) (n : Nat), (cfg.laneCount = .one →
      blockRows cfg n [none] = List.replicate n (.one (.void .fetch))) ∧
    ∀ a b c : ReadResult, cfg.laneCount = .three → ∀ row ∈ blockRows cfg n [a, b, c], ∃ x y z, row = .three x y z ∧
      (a = none → x = .void .fetch) ∧ (b = none → y = .void .fetch) ∧ (c = none → z = .void .fetch)) ∧
  (∀ (x : Stream) (span : Nat) (u : Taken), liveSpan x span = some u →
    (∀ (index : Nat) (bytes : List Byte), handOver x (.container span index bytes) = { x with
      queue := x.queue ++ [{ addr := u.header.outputAddr + index * bytes.length, bytes := bytes, tag := .container u.tid }] }) ∧
    (∀ (slot : Nat) (bytes : List Byte), handOver x (.logEntry span slot bytes) = { x with
      queue := x.queue ++ [{ addr := u.header.logAddr + 16 * slot, bytes := bytes, tag := .logEntry u.tid }] }) ∧
    ∀ y : Tally, handOver x (.complete span y) = { x with
      queue := x.queue ++
        [{ addr := u.addr + 0x80, bytes := reportBytes .ok u.header.sequence y 0 0, tag := .report u.tid },
         { addr := u.addr, bytes := [], tag := .finish u.tid false }]
      taken := x.taken.map fun v => if v.tid = u.tid then { v with final := some y } else v }) ∧
  (∀ (x : Stream) (span : Nat), liveSpan x span = none → (∀ i b, handOver x (.container span i b) = x) ∧
    (∀ i b, handOver x (.logEntry span i b) = x) ∧ ∀ y, handOver x (.complete span y) = x) ∧
  (∀ (s : State) (k : StreamId) (u : Taken) (ctx : SignalContext) (start : Nat),
    s.enable = true → s.engine = none → firstAfter s.engineLast (ready s) = some k →
    blockReady (s.stream k) = false → stoppingReady (s.stream k) = false →
    newestBegun (s.stream k) = some u → u.start = some start → (s.stream k).ctx = some ctx →
    let r := flushClick (start + u.header.count - 1)
      { ctx := ctx, live := liveStarts (s.stream k), emits := [], laneChanges := 0 }
    ∃ x : Stream, exec .engineGrant s = .next (drain { s.setStream k x with
        engine := some { stream := k, laneChanges := 0 }, engineLast := k }) ∧
      x = { r.emits.foldl handOver (s.stream k) with ctx := some r.ctx, flushMade := true } ∧
      x.schedule = (s.stream k).schedule ∧ x.staging = (s.stream k).staging ∧ x.slot0 = (s.stream k).slot0 ∧
      x.slot1 = (s.stream k).slot1 ∧ x.takes = (s.stream k).takes ∧
      (x.taken.map fun v => (v.tid, v.processed)) = (s.stream k).taken.map fun v => (v.tid, v.processed)) ∧
  (∀ (r : Run) (y : Tally) (ys : List Tally), r.ctx.tallies = y :: ys →
    (y.thEnd = none → completeRun r = r) ∧
    (∀ w, r.ctx.click.window = some w → w.span = y.start → y.start ∈ r.live → completeRun r = r) ∧
    (y.thEnd ≠ none → (∀ w, r.ctx.click.window = some w → w.span ≠ y.start) ∨ y.start ∉ r.live →
      ∃ es, (completeRun r).emits = r.emits ++ .complete y.start y :: es ∧ (completeRun r).ctx.tallies <:+ ys ∧
        (completeRun r).ctx.click = r.ctx.click))

/-- A log entry goes to the span that holds the window's start while its handed entries are below its capacity, into the next
slot; at capacity it is counted lost; either way the count of the window's kind rises by 1 and no other kind's does (R85, R87,
R157, R158). The kind of a window (R86): PROTECTED with any protected sample, else LONG when it became LONG, else SPLICE with any
sample in a splice bump, else VOID with any void, else CLICK, from a content gathered sample by sample (R72). -/
def Obligations.LogEntryPlacedOrLost : Prop :=
  (∀ (span start length : Nat) (kind : Kind) (c : Content) (r : Run) (y : Tally),
    r.ctx.tallies.find? (fun u => decide (u.start = span)) = some y →
    ∃ z : Tally, (handEntry span start length kind c r).ctx.tallies.find? (fun u => decide (u.start = span)) = some z ∧
      (y.logWritten < y.capacity → z.logWritten = y.logWritten + 1 ∧ z.logLost = y.logLost ∧
        (handEntry span start length kind c r).emits =
          r.emits ++ [.logEntry span y.logWritten (logEntryBytes (start - span) length kind c)]) ∧
      (y.capacity ≤ y.logWritten → z.logWritten = y.logWritten ∧ z.logLost = y.logLost + 1 ∧
        (handEntry span start length kind c r).emits = r.emits) ∧
      z.clickWindows = y.clickWindows + (if kind = .click then 1 else 0) ∧
      z.voidWindows = y.voidWindows + (if kind = .void then 1 else 0) ∧
      z.spliceWindows = y.spliceWindows + (if kind = .splice then 1 else 0) ∧
      z.protectedWindows = y.protectedWindows + (if kind = .prot then 1 else 0) ∧
      z.longWindows = y.longWindows + (if kind = .long then 1 else 0)) ∧
  (∀ (long : Bool) (hs : List Held), let c := hs.foldl addContent emptyContent
    (windowKind long c = .prot ↔ ∃ h ∈ hs, h.prot = true) ∧
    (windowKind long c = .long ↔ (∀ h ∈ hs, h.prot = false) ∧ long = true) ∧
    (windowKind long c = .splice ↔ (∀ h ∈ hs, h.prot = false) ∧ long = false ∧ ∃ h ∈ hs, h.bump = true) ∧
    (windowKind long c = .void ↔ (∀ h ∈ hs, h.prot = false) ∧ long = false ∧ (∀ h ∈ hs, h.bump = false) ∧
      ∃ h ∈ hs, isVoid h.u = true) ∧
    c.voids = hs.countP (fun h => isVoid h.u) ∧ (c.scanner = true ↔ ∃ h ∈ hs, h.u = .void .scanner) ∧
    (c.fetch = true ↔ ∃ h ∈ hs, h.u = .void .fetch) ∧ (c.unresolved = true ↔ ∃ h ∈ hs, h.unresolved = true) ∧
    (∀ h ∈ hs, ∀ e, h.absE = some e → e ≤ c.peak) ∧ (c.peak = 0 ∨ ∃ h ∈ hs, h.absE = some c.peak))

/-- BLOCK_END (R20, R121, R123, R172, R194): the engine becomes idle; lane changes made in the block signal LANE_CHANGE, whatever
the state, and a block without one does not. A RUNNING stream whose taken samples are all voted enters AWAIT_LINK, otherwise it stays RUNNING; a STOPPING stream
with no fetch in progress gives back its spans that have not begun, or, with no span left, enters STOPPED; an ABORTING or HALTING
stream waits for its rollback. The model's choices: with the engine idle nothing happens (log entry 5), and stop work waits for
the stream's fetch (log entries 16 and 17). -/
def Obligations.BlockEndActsByState : Prop :=
  (∀ s : State, s.engine = none → exec .blockEnd s = .next s) ∧
  ∀ (s : State) (e : Serving), s.engine = some e → ∃ t : State, exec .blockEnd s = .next t ∧ t.engine = none ∧
    let x := s.stream e.stream
    let y := t.stream e.stream
    OthersKept e.stream s t ∧ SameControl s t ∧ SameStatus s t ∧ t.cmd = s.cmd ∧ t.fetch = s.fetch ∧
    y.slot0 = x.slot0 ∧ y.slot1 = x.slot1 ∧ y.counters = x.counters ∧ y.progressAddr = x.progressAddr ∧
    y.failing = x.failing ∧ y.ctx = x.ctx ∧ y.schedule = x.schedule ∧ y.takes = x.takes ∧
    (y.taken.map fun u => (u.tid, u.start, u.processed)) = (x.taken.map fun u => (u.tid, u.start, u.processed)) ∧
    (0 < e.laneChanges → latched t.evlatch .laneChange = true) ∧
    (e.laneChanges = 0 → latched t.evlatch .laneChange = latched s.evlatch .laneChange) ∧
    (∀ m : State, m = (if e.laneChanges = 0 then { s with engine := none }
        else signal .laneChange { s with engine := none }) →
      (x.state ≠ .stopping ∨ fetching s e.stream = true → SameEvents m t) ∧
      (x.state = .stopping → fetching s e.stream = false → StopWorkFollows e.stream m t)) ∧
    (x.state = .running → (y.state = .running → y.apart = x.apart) ∧
      (y.state = .awaitLink → y.apart = { x.apart with state := .awaitLink, owed := y.owed } ∧
        (x.owed = [] → y.owed = [] ∧ ∀ p, x.progressAddr = some p → UnderWay t e.stream (recordWrite e.stream y p)))) ∧
    (x.state = .running → y.tag = x.tag ∧
      y.state = if (∀ u ∈ x.taken, u.processed = (u.header.count + 1023) / 1024) then .awaitLink else .running) ∧
    (x.state = .stopping →
      (fetching s e.stream = true → y.state = .stopping ∧ y.taken = x.taken ∧ y.apart = x.apart) ∧
      (fetching s e.stream = false → x.taken ≠ [] → y.state = .stopping ∧ y.taken = allGivenBack x.taken) ∧
      (fetching s e.stream = false → x.taken = [] →
        y.state = .stopped ∧ y.tag = x.tag + 1 ∧ latched t.evlatch .stopped = true)) ∧
    (x.state ≠ .running → x.state ≠ .stopping → y.apart = x.apart)

/-! ## Rollback and writes -/

/-- ROLLBACK when it is due (R137): the restart checkpoint, in the slot recorded for the oldest begun span (R135, R136), replaces
the context, which stays when no span has begun; slots and list are emptied, a FINISHED anchor
stays and any other is dropped, the bypass entries stay, and the stream enters STOPPED from ABORTING or HALTED from HALTING
with its tag raised by 1 and its event latched. The chain position and the expectation are those of the oldest begun span, else of
a span that failed at its take or skip, else of the first span of the list, and with none they stay (R137 step 3). The model's
choice (log entry 5): before it is due nothing happens; its reading (log entry 26): the rollback is one step.
The writes of the rollback enter the empty queue in order, and then the progress record of the state entered, with the raised tag
(R131, R137, R190).
A rollback is due exactly when the stream is ABORTING or HALTING, no block and no fetch of it is in progress, its write queue is
empty and none of its writes is issued (R137, R173).
The writes of a rollback, in order (R137 step 2, R176): every span of the list, oldest first, is written POSTED, but for
the failing one, whose report and then FAILED stand in its place; a span that failed at its take follows with its report and
FAILED, and no other span is written.
The report of a failing span (R164): its code and its echo; of a span that had begun the figures of its tallies as they stand, the
final ones once it has left the data path, with the live mask and Th where the tallies record none, and both signatures; of a span
that failed at its take every count, the mask, Th and both signatures 0, and so, the model's choice (log entry 40), of a span that
never began and whose POSTED word failed. -/
def Obligations.RollbackRestoresAndRests : Prop :=
  (∀ (s : State) (k : StreamId),
    (rollbackDue k s = false → exec (.rollback k) s = .next s) ∧
    (rollbackDue k s = true → ∃ t : State, exec (.rollback k) s = .next t ∧
      (t.stream k).state = (if (s.stream k).state = .aborting then .stopped else .halted) ∧
      (t.stream k).tag = (s.stream k).tag + 1 ∧
      (t.stream k).ctx = (match restartCheckpoint (s.stream k) with
        | none => (s.stream k).ctx
        | some c => some c.ctx) ∧
      ((∀ v ∈ (s.stream k).taken, v.start = none) → (t.stream k).ctx = (s.stream k).ctx) ∧
      (∀ before u after c, (s.stream k).taken = before ++ u :: after → (∀ v ∈ before, v.start = none) → u.start ≠ none →
        (u.slot = some false ∧ (s.stream k).slot0 = some c ∨ u.slot = some true ∧ (s.stream k).slot1 = some c) →
        (t.stream k).ctx = some c.ctx) ∧
      (t.stream k).slot0 = none ∧ (t.stream k).slot1 = none ∧ (t.stream k).taken = [] ∧
      (t.stream k).failing = (s.stream k).failing ∧ (t.stream k).counters = (s.stream k).counters ∧
      (t.stream k).skip = (s.stream k).skip ∧ (t.stream k).openCode = (s.stream k).openCode ∧
      (t.stream k).chain.bypass = (s.stream k).chain.bypass ∧
      (∀ a, (s.stream k).chain.anchor = some a →
        (t.stream k).chain.anchor = if a.finished = true then some a else none) ∧
      latched t.evlatch (if (s.stream k).state = .aborting then .stopped else .attention) = true ∧
      (∀ before u after, (s.stream k).taken = before ++ u :: after → (∀ v ∈ before, v.start = none) → u.start ≠ none →
        (t.stream k).position = .span u.addr ∧ (t.stream k).chain.expected = u.expBefore) ∧
      ((∀ v ∈ (s.stream k).taken, v.start = none) →
        (∀ h, (s.stream k).halt = some h → h.tid = none →
          (t.stream k).position = .span h.addr ∧ (t.stream k).chain.expected = h.expBefore) ∧
        ((∀ h, (s.stream k).halt = some h → h.tid ≠ none) →
          (∀ u rest, (s.stream k).taken = u :: rest →
            (t.stream k).position = .span u.addr ∧ (t.stream k).chain.expected = u.expBefore) ∧
          ((s.stream k).taken = [] → (t.stream k).position = (s.stream k).position ∧
            (t.stream k).chain.expected = (s.stream k).chain.expected))) ∧
      (∃ u : State, t = drain u ∧ u.issued = s.issued ∧ ((s.stream k).owed = [] →
        (u.stream k).queue = rollbackWrites (s.stream k) ++
          (match (s.stream k).progressAddr with
            | none => []
            | some p => [recordWrite k (t.stream k) p]))) ∧
      OthersKept k s t ∧ SameStatus s t ∧ SameAround s t ∧ t.cmd = s.cmd ∧ t.fetch = s.fetch)) ∧
  (∀ (s : State) (k : StreamId), rollbackDue k s = true ↔
    ((s.stream k).state = .aborting ∨ (s.stream k).state = .halting) ∧ (∀ e, s.engine = some e → e.stream ≠ k) ∧
      (∀ f, s.fetch = some f → f.stream ≠ k) ∧ (s.stream k).queue = [] ∧ ∀ i ∈ s.issued, i.stream ≠ k) ∧
  ∀ x : Stream,
    (x.halt = none → rollbackWrites x =
      x.taken.map fun t => { addr := t.addr, bytes := [1#8, 0#8, 0#8, 0#8], tag := .rollback }) ∧
    (∀ h : Halt, x.halt = some h → h.tid = none → rollbackWrites x =
      (x.taken.map fun t => { addr := t.addr, bytes := [1#8, 0#8, 0#8, 0#8], tag := .rollback }) ++
        [{ addr := h.addr + 0x80, bytes := unbegunReport h, tag := .rollback },
         { addr := h.addr, bytes := [5#8, 0#8, 0#8, 0#8], tag := .rollback }]) ∧
    (∀ (h : Halt) (before after : List Taken) (t : Taken), x.halt = some h → h.tid = some t.tid →
      x.taken = before ++ t :: after → (∀ u ∈ before ++ after, u.tid ≠ t.tid) → rollbackWrites x =
      (before.map fun u => { addr := u.addr, bytes := [1#8, 0#8, 0#8, 0#8], tag := .rollback }) ++
        { addr := t.addr + 0x80, bytes := failingReport x h t, tag := .rollback } ::
        { addr := t.addr, bytes := [5#8, 0#8, 0#8, 0#8], tag := .rollback } ::
        after.map fun u => { addr := u.addr, bytes := [1#8, 0#8, 0#8, 0#8], tag := .rollback }) ∧
    (∀ (h : Halt) (t : Taken) (y : Tally) (ctx : SignalContext), x.ctx = some ctx →
      (t.final = some y ∨ t.final = none ∧ ∃ start, t.start = some start ∧
        ctx.tallies.find? (fun u => decide (u.start = start)) = some y) →
      failingReport x h t = reportBytes h.code h.echo y (liveMask x) (ctx.hiss.th / 256).toNat) ∧
    (∀ (h : Halt) (t : Taken), t.final = none → t.start = none → failingReport x h t = unbegunReport h) ∧
    (∀ h : Halt, (unbegunReport h).length = 128 ∧ fieldAt (unbegunReport h) 0x00 4 = completionCode h.code ∧
      fieldAt (unbegunReport h) 0x04 4 = h.echo.toNat ∧ fieldAt (unbegunReport h) 0x08 120 = 0)

/-- Rollback returns a stream to the moment its oldest unfinished span began (R135, R137, R139): whatever the signal context
became after the span began, it is again the one before the span's first sample, the chain position is the span and the
expected sequence the one before its take. With two begun spans it is the moment the older began, whichever slot is free first; when
the older has finished and its slot has been freed, it is the moment the younger began (R136). With no begun span the context
stays (R137). -/
def Obligations.RollbackUndoesSpanStart : Prop :=
  (∀ (x : Stream) (t : Taken) (rest : List Taken) (ctx later : SignalContext),
    x.taken = t :: rest → t.start = none → (∀ u ∈ rest, u.tid ≠ t.tid ∧ u.start = none) → x.ctx = some ctx →
    let y := rollBack { beginSpan t x with ctx := some later }
    y.ctx = some ctx ∧ y.position = .span t.addr ∧ y.chain.expected = t.expBefore ∧ y.taken = []) ∧
  (∀ (x begun both : Stream) (t u : Taken) (rest : List Taken) (ctx mid later : SignalContext),
    x.taken = t :: u :: rest → u.tid ≠ t.tid → (∀ v ∈ rest, v.tid ≠ t.tid ∧ v.tid ≠ u.tid ∧ v.start = none) →
    x.ctx = some ctx →
    (x.slot0 = none ∧ begun = { beginSpan t x with ctx := some mid } ∨
      x.slot0 ≠ none ∧ begun = { beginSpan t x with ctx := some mid, slot0 := none }) →
    both = { beginSpan u begun with ctx := some later } →
    ((rollBack both).ctx = some ctx ∧ (rollBack both).position = .span t.addr ∧
      (rollBack both).chain.expected = t.expBefore ∧ (rollBack both).taken = []) ∧
    ∀ alone : Stream, alone = { both with taken := both.taken.filter fun v => !decide (v.tid = t.tid) } →
      ∀ freed : Stream, freed = (if x.slot0 = none then { alone with slot0 := none } else { alone with slot1 := none }) →
        (rollBack freed).ctx = some mid ∧ (rollBack freed).position = .span u.addr ∧
          (rollBack freed).chain.expected = u.expBefore) ∧
  (∀ x : Stream, (∀ v ∈ x.taken, v.start = none) → (rollBack x).ctx = x.ctx)

/-- The ACTIVE word has been reported written (R147, R121): the span joins the end of the list, not begun, with the expectation
before its take, named in the model by the number of takes before it, which rises by 1 (log entry 22). While the stream follows its chain the span is the anchor and the chain position, its sequence + 1 is expected,
and a stream in AWAIT_LINK is RUNNING; a FINISHED anchor before it has its RELEASED word queued or issued, and the record of an
entry to RUNNING waits for that word's report (R152, R176; log entry 18). In STOPPING the span is given back (R122, R123 step 4),
in the model's reading (log entry 16) at once with no block in progress, the chain position and the expectation set at that moment,
and not yet while a block is served; in ABORTING or HALTING it stands in the list for the rollback. -/
def Obligations.TakeCompletesAtActiveWrite : Prop :=
  ∀ (s : State) (k : StreamId) (i : Nat) (w : Write) (a : Nat) (h : Header) (marks : List Mark) (p : Option Profile),
    s.issued[i]? = some { stream := k, write := w } → w.tag = .active →
    s.fetch = some { stream := k, phase := .active a h marks p } →
    ∃ (t : State) (u : Taken), exec (.writeDone i true) s = .next t ∧
      u.addr = a ∧ u.header = h ∧ u.marks = marks ∧ u.profile = p ∧ u.expBefore = (s.stream k).chain.expected ∧
      u.start = none ∧ u.slot = none ∧ u.staged = 0 ∧ u.processed = 0 ∧ u.final = none ∧
      u.tid = (s.stream k).takes ∧ (t.stream k).takes = (s.stream k).takes + 1 ∧
      (t.stream k).tag = (s.stream k).tag ∧ t.fetch = none ∧
      SameHoldings (s.stream k) (t.stream k) ∧ (t.stream k).failing = (s.stream k).failing ∧ (t.stream k).skip = (s.stream k).skip ∧
      OthersKept k s t ∧ SameStatus s t ∧ SameEvents s t ∧ SameAround s t ∧ t.cmd = s.cmd ∧
      ((s.stream k).state ≠ .stopping → u.givingBack = false ∧ (t.stream k).taken = (s.stream k).taken ++ [u] ∧
        (t.stream k).chain.anchor = some { addr := a, sequence := h.sequence, link := h.link, finished := false } ∧
        (t.stream k).position = .anchor a ∧ (t.stream k).chain.expected = some (h.sequence + 1) ∧
        (t.stream k).state = if (s.stream k).state = .awaitLink then .running else (s.stream k).state) ∧
      (∀ c, (s.stream k).chain.anchor = some c → c.finished = true →
        UnderWay t k { addr := c.addr, bytes := [4#8, 0#8, 0#8, 0#8], tag := .anchorRelease .take c.sequence } ∧
        (t.stream k).owed =
          (if (s.stream k).state = .awaitLink then (s.stream k).owed ++ [.running] else (s.stream k).owed)) ∧
      ((s.stream k).state = .stopping → serving s k = false → u.givingBack = true ∧
        (t.stream k).state = .stopping ∧ (t.stream k).taken = allGivenBack (s.stream k).taken ++ [u] ∧
        ((∀ v ∈ (s.stream k).taken, v.start ≠ none ∨ v.givingBack = true) →
          (t.stream k).position = .span a ∧ (t.stream k).chain.expected = (s.stream k).chain.expected ∧
          UnderWay t k { addr := a, bytes := [1#8, 0#8, 0#8, 0#8], tag := .giveBack u.tid })) ∧
      ((s.stream k).state = .stopping → serving s k = true → u.givingBack = false ∧
        (t.stream k).state = .stopping ∧ (t.stream k).taken = (s.stream k).taken ++ [u])

/-- A span finishes when its state word has been reported written (R136, R151, R188): it leaves the list, its slot is freed,
the samples output rise by its sample count and, when the word was RELEASED, the released counters take the span; a span
flagged NOTIFY latches SPAN_NOTIFY. FINISHED: the span is the anchor, reading FINISHED, with the next-link known of it. RELEASED:
a bypass entry that it precedes is dropped and, with no span taken beyond it, that is none after it in the list but those given
back, the chain goes on at the entry's recorded next-link,
with no anchor and the entry's sequence + 1 expected, and a stream that has not followed the span's own next-link waits on the
state word there, at once if it was not waiting (R149, R195, R196; log entry 42). In STOPPING, with the list empty and nothing of
the stream in progress, the stream enters STOPPED at that position (R123).
The POSTED word of a stop has been reported written (R122, R123): its span leaves the list, and with no span left and nothing of
the stream in progress the stream enters STOPPED, its tag raised by 1 and its event latched; else it stays STOPPING.
The progress record of the finish, and that of STOPPED, are handed over (R131, R190; for its lanes during a block log entry 49). The model's readings: STOPPED waits for the
stream's fetch transaction to end (log entry 17), and the record of a finish that completes a stop shows STOPPING and
the chain position of before the stop's (log entries 16 and 48). -/
def Obligations.SpanFinishesAtStateWord : Prop :=
  (∀ (s : State) (k : StreamId) (i : Nat) (w : Write) (tid : Nat) (released : Bool) (u : Taken),
    s.issued[i]? = some { stream := k, write := w } → w.tag = .finish tid released →
    findTaken (s.stream k) tid = some u →
    ∃ t : State, exec (.writeDone i true) s = .next t ∧
      let x := s.stream k
      let y := t.stream k
      (y.taken.map fun v => (v.tid, v.start)) =
        ((x.taken.filter fun v => !decide (v.tid = tid)).map fun v => (v.tid, v.start)) ∧
      y.slot0 = (if u.slot = some false then none else x.slot0) ∧
      y.slot1 = (if u.slot = some true then none else x.slot1) ∧
      y.counters = (if released = true then
          { lastAddr := u.addr, lastSeq := u.header.sequence, released := x.counters.released + 1
            samples := x.counters.samples + BitVec.ofNat 64 u.header.count }
        else { x.counters with samples := x.counters.samples + BitVec.ofNat 64 u.header.count }) ∧
      (u.header.notify = true → latched t.evlatch .spanNotify = true) ∧
      y.ctx = x.ctx ∧ y.schedule = x.schedule ∧ y.takes = x.takes ∧ y.failing = x.failing ∧ y.skip = x.skip ∧
      OthersKept k s t ∧ SameStatus s t ∧ SameAround s t ∧ t.fetch = s.fetch ∧ t.cmd = s.cmd ∧
      (∀ p, x.progressAddr = some p → x.owed = [] →
        UnderWay t k (recordWrite k { x with
          counters := y.counters
          position := match bypassOf x.chain u.addr with
            | none => x.position
            | some b => if released = true ∧ takenBeyond x tid = false then .span b.link else x.position } p) ∧
        (x.state ≠ .stopping ∨ y.state = .stopped → UnderWay t k (recordWrite k y p))) ∧
      (x.state ≠ .stopping → y.state = x.state ∧ y.tag = x.tag ∧ y.staging = x.staging ∧
        y.taken = x.taken.filter (fun v => !decide (v.tid = tid)) ∧
        (released = false → y.position = x.position ∧
          (∀ link : Nat, link = (match x.chain.anchor with
              | none => u.header.link
              | some c => if c.addr = u.addr then c.link else u.header.link) →
            y.chain = { x.chain with
              anchor := some { addr := u.addr, sequence := u.header.sequence, link := link, finished := true } })) ∧
        (released = true → (∀ b ∈ x.chain.bypass, b.preceding ≠ u.addr) → y.chain = x.chain ∧ y.position = x.position) ∧
        (∀ b, released = true → bypassOf x.chain u.addr = some b → takenBeyond x tid = true →
          y.chain = dropBypass u.addr x.chain ∧ y.position = x.position) ∧
        (∀ b, released = true → bypassOf x.chain u.addr = some b → takenBeyond x tid = false →
          y.position = .span b.link ∧ y.chain.anchor = none ∧ y.chain.expected = some (b.sequence + 1) ∧
          y.chain.bypass = (dropBypass u.addr x.chain).bypass ∧ y.timer = x.timer ∧
          ((x.state = .running ∨ x.state = .awaitLink) → x.position = .anchor u.addr → y.chain.wait = .state ∧
            y.readDue = (x.readDue || decide (x.chain.wait = .none))) ∧
          (x.position ≠ .anchor u.addr ∨ (x.state ≠ .running ∧ x.state ≠ .awaitLink) →
            y.chain.wait = x.chain.wait ∧ y.readDue = x.readDue))) ∧
      (x.state = .stopping → serving s k = false → fetching s k = false → (∀ v ∈ x.taken, v.tid = tid) →
        y.state = .stopped ∧ y.tag = x.tag + 1 ∧ latched t.evlatch .stopped = true ∧
        (x.gaveBack = false → released = false → y.position = .anchor u.addr) ∧
        (∀ b, x.gaveBack = false → released = true → bypassOf x.chain u.addr = some b → takenBeyond x tid = false →
          y.position = .span b.link))) ∧
  (∀ (s : State) (k : StreamId) (i : Nat) (w : Write) (tid : Nat),
    s.issued[i]? = some { stream := k, write := w } → w.tag = .giveBack tid →
    ∃ t : State, exec (.writeDone i true) s = .next t ∧
      let x := s.stream k
      let y := t.stream k
      (y.taken.map fun v => (v.tid, v.start)) =
        ((x.taken.filter fun v => !decide (v.tid = tid)).map fun v => (v.tid, v.start)) ∧
      SameHoldings x y ∧ y.failing = x.failing ∧ y.skip = x.skip ∧ y.chain.bypass = x.chain.bypass ∧
      OthersKept k s t ∧ SameStatus s t ∧ SameAround s t ∧ t.fetch = s.fetch ∧ t.cmd = s.cmd ∧
      (x.state = .stopping → serving s k = false → fetching s k = false → (∀ v ∈ x.taken, v.tid = tid) →
        y.state = .stopped ∧ y.tag = x.tag + 1 ∧ latched t.evlatch .stopped = true ∧
        (∀ p, x.progressAddr = some p → x.owed = [] → UnderWay t k (recordWrite k y p)) ∧
        y.chain.expected = x.chain.expected ∧ (x.gaveBack = true → y.position = x.position)) ∧
      (x.state = .stopping → serving s k = true ∨ fetching s k = true ∨ (∃ v ∈ x.taken, v.tid ≠ tid) →
        y.state = .stopping ∧ y.tag = x.tag ∧ SameEvents s t) ∧
      (x.state ≠ .stopping → y.state = x.state ∧ y.tag = x.tag ∧ y.chain = x.chain ∧ y.position = x.position ∧
        SameEvents s t)) ∧
  ∀ (x : Stream) (before after : List Taken) (u : Taken), x.taken = before ++ u :: after →
    (∀ v ∈ before, v.tid ≠ u.tid) → (takenBeyond x u.tid = true ↔ ∃ v ∈ after, v.givingBack = false)

/-- The state word of a finishing span is chosen when it is issued (R151, R196; log entry 9): RELEASED when a span after it in the
list has been taken and not given back, or when it precedes a bypass entry, else FINISHED. RELEASED is not issued while a
next-link read of the span is in progress, and once it is issued no read of the span's next-link is asked for (R143). In STOPPING
the word of the newest begun span is not issued before the spans that have not begun have been given back, nor while a take of
the stream reads its header, its marks or its profile or has its ACTIVE word under way (R122, R123 step 4, R176). The model's
choice (log entry 44): a span whose POSTED word has failed counts as given back. -/
def Obligations.FinishWordChosenWhenIssued : Prop :=
  (∀ (x : Stream) (w : Write) (u : Taken) (b : Bool) (before after : List Taken), w.tag = .finish u.tid b →
    x.taken = before ++ u :: after → (∀ v ∈ before, v.tid ≠ u.tid) →
    ((∃ v ∈ after, v.givingBack = false) ∨ (∃ e ∈ x.chain.bypass, e.preceding = u.addr) →
      resolveFinish x w = { addr := w.addr, bytes := [4#8, 0#8, 0#8, 0#8], tag := .finish u.tid true }) ∧
    ((∀ v ∈ after, v.givingBack = true) → (∀ e ∈ x.chain.bypass, e.preceding ≠ u.addr) →
      resolveFinish x w = { addr := w.addr, bytes := [3#8, 0#8, 0#8, 0#8], tag := .finish u.tid false })) ∧
  (∀ (s : State) (k : StreamId) (w : Write) (ws : List Write) (tid : Nat) (b : Bool),
    (s.stream k).queue = w :: ws → w.tag = .finish tid b →
    (∀ whole stale, s.fetch = some { stream := k, phase := .wait .link w.addr whole stale } →
      finishesReleased (s.stream k) tid = true → issuable s k = false) ∧
    (∀ n : Taken, (s.stream k).state = .stopping → newestBegun (s.stream k) = some n → n.tid = tid →
      ((∃ v ∈ (s.stream k).taken, v.start = none ∧ v.givingBack = false) ∨
        (∃ a, s.fetch = some { stream := k, phase := .header a }) ∨
        (∃ a h, s.fetch = some { stream := k, phase := .marks a h }) ∨
        (∃ a h marks, s.fetch = some { stream := k, phase := .profile a h marks }) ∨
        ∃ a h marks p, s.fetch = some { stream := k, phase := .active a h marks p }) → issuable s k = false) ∧
    (finishHeld s k w = false → (∀ i ∈ s.issued, i.stream ≠ k) → issuable s k = true ∧
      (issueOne k s).issued = s.issued ++ [{ stream := k, write := resolveFinish (s.stream k) w }] ∧
      ((issueOne k s).stream k).queue = ws)) ∧
  (∀ (s : State) (k : StreamId) (a tid : Nat) (i : Issued), i ∈ s.issued → i.stream = k →
    i.write.tag = .finish tid true → i.write.addr = a → (s.stream k).position = .anchor a → requests s k = true →
    needsOpenRead (s.stream k) = true ∨ needsLaneRead (s.stream k) = true)

/-- Failed writes by what was written (R178, R186). A container or log entry fails its span with OUTPUT_FAULT. A report, a state
word of a finish or a POSTED word of a stop sets STATE_FAULT and fails its span with STATE_FAULT; so do ACTIVE, which fails its
take (R147), and the SKIPPED code or RELEASED of a skip (R154). A progress record sets PROGRESS_FAULT, an anchor's RELEASED and a
write of a rollback STATE_FAULT, and the stream keeps its state. Each setting shows the stream and latches DEVICE_FAULT. In ABORTING
and HALTING a failed write sets its DEVSTAT bit, and no failure of a span is recorded (R126). A fetch transaction in progress goes
on (R173), but for the take or the skip that the write belongs to, which ends. The
model's readings: of a failed skip nothing more is written (log entry 14), and after a failed anchor release no progress record
waits any longer (log entries 18 and 35). -/
def Obligations.FailedWritesByKind : Prop :=
  ∀ (s : State) (k : StreamId) (i : Nat) (w : Write), s.issued[i]? = some { stream := k, write := w } →
    ∃ t : State, exec (.writeDone i false) s = .next t ∧ OthersKept k s t ∧ SameAround s t ∧ t.cmd = s.cmd ∧
      (∀ (tid : Nat) (u : Taken), findTaken (s.stream k) tid = some u → recordsFailure (s.stream k).state = true →
        ((w.tag = .container tid ∨ w.tag = .logEntry tid) →
          HaltsWith (listHalt u .outputFault) (s.stream k) (t.stream k) ∧ SameStatus s t) ∧
        ((w.tag = .report tid ∨ w.tag = .giveBack tid ∨ ∃ b, w.tag = .finish tid b) →
          HaltsWith (listHalt u .stateFault) (s.stream k) (t.stream k) ∧ SetsStateFault k s t)) ∧
      (∀ (a : Nat) (h : Header) (marks : List Mark) (p : Option Profile), w.tag = .active →
        s.fetch = some { stream := k, phase := .active a h marks p } → recordsFailure (s.stream k).state = true →
        HaltsWith (takeHalt a .stateFault h.sequence (s.stream k)) (s.stream k) (t.stream k) ∧ SetsStateFault k s t ∧
        t.fetch = none) ∧
      (∀ (a : Nat) (h : Header), w.tag = .skipCode ∨ w.tag = .skipReleased →
        s.fetch = some { stream := k, phase := .skip a h } → recordsFailure (s.stream k).state = true →
        HaltsWith (takeHalt a .stateFault h.sequence (s.stream k)) (s.stream k) (t.stream k) ∧ SetsStateFault k s t ∧
        t.fetch = none ∧
          ∀ v ∈ (t.stream k).queue, v.tag ≠ .skipReleased) ∧
      (w.tag = .progress → (t.stream k).apart = (s.stream k).apart ∧ t.faults = s.faults ||| 0b0010#4 ∧
        t.lastFault.toNat = k.val ∧ latched t.evlatch .deviceFault = true) ∧
      (w.tag = .rollback → (t.stream k).apart = (s.stream k).apart ∧ SetsStateFault k s t) ∧
      ((s.stream k).state = .aborting ∨ (s.stream k).state = .halting →
        (t.stream k).state = (s.stream k).state ∧ (t.stream k).failing = (s.stream k).failing ∧
        (t.stream k).halt = (s.stream k).halt ∧ (t.stream k).taken = (s.stream k).taken ∧
        (t.stream k).tag = (s.stream k).tag ∧ (t.stream k).ctx = (s.stream k).ctx ∧
        (t.stream k).schedule = (s.stream k).schedule ∧
        (t.stream k).slot0 = (s.stream k).slot0 ∧ (t.stream k).slot1 = (s.stream k).slot1 ∧
        (t.stream k).counters = (s.stream k).counters ∧ (t.stream k).position = (s.stream k).position ∧
        (∀ tid : Nat, (w.tag = .container tid ∨ w.tag = .logEntry tid → SameStatus s t ∧ SameEvents s t) ∧
          (w.tag = .report tid ∨ w.tag = .giveBack tid ∨ (∃ b, w.tag = .finish tid b) → SetsStateFault k s t)) ∧
        (w.tag = .active ∨ w.tag = .skipCode ∨ w.tag = .skipReleased → SetsStateFault k s t)) ∧
      (∀ why q, w.tag = .anchorRelease why q → (t.stream k).state = (s.stream k).state ∧
        (t.stream k).failing = (s.stream k).failing ∧ (t.stream k).counters = (s.stream k).counters ∧
        (t.stream k).owed = [] ∧ SetsStateFault k s t) ∧
      (w.tag ≠ .active → w.tag ≠ .skipCode → w.tag ≠ .skipReleased → t.fetch = s.fetch) ∧
      ((∀ f, s.fetch = some f → f.stream ≠ k) → t.fetch = s.fetch) ∧
      (∀ (a : Nat) (h : Header) (marks : List Mark) (p : Option Profile), w.tag = .active →
        s.fetch = some { stream := k, phase := .active a h marks p } → t.fetch = none) ∧
      (∀ (a : Nat) (h : Header), w.tag = .skipCode ∨ w.tag = .skipReleased →
        s.fetch = some { stream := k, phase := .skip a h } → t.fetch = none)

/-- The release of a FINISHED anchor (R128, R152, R188, R190). When its RELEASED word is reported written, the counters take the
anchor, the progress records that waited for it are handed over, oldest first, each with the state of its own event and every
other field as it now stands, and at a take one more follows for the release itself. At CLOSE the chain context is emptied; a
FINISHED anchor is written RELEASED and the record waits for it, and with none the record is handed over at once. The model's
readings: which records wait (log entry 18), and the record of the release at a take (log entry 35). -/
def Obligations.AnchorReleaseReported : Prop :=
  (∀ (s : State) (k : StreamId) (i : Nat) (w : Write) (why : ReleaseWhy) (q : Seq) (p : Nat),
    s.issued[i]? = some { stream := k, write := w } → w.tag = .anchorRelease why q →
    (s.stream k).progressAddr = some p →
    ∃ (x : Stream) (rs : List Write), exec (.writeDone i true) s =
        .next (drain ({ s with issued := s.issued.eraseIdx i }.setStream k x)) ∧
      x.counters = { lastAddr := w.addr, lastSeq := q, released := (s.stream k).counters.released + 1
                     samples := (s.stream k).counters.samples } ∧
      x.chain = dropBypass w.addr (s.stream k).chain ∧ x.state = (s.stream k).state ∧ x.tag = (s.stream k).tag ∧
      x.taken = (s.stream k).taken ∧ x.position = (s.stream k).position ∧ x.owed = [] ∧
      x.apart = { (s.stream k).apart with
        counters := x.counters, chain := x.chain, owed := x.owed, progressAddr := x.progressAddr } ∧
      x.progressAddr = (if why = .close then none else some p) ∧
      x.queue = (s.stream k).queue ++ rs ∧ rs.length = (s.stream k).owed.length + (if why = .take then 1 else 0) ∧
      (∀ (j : Nat) (r : Write), rs[j]? = some r → r.addr = p ∧ r.tag = .progress ∧ r.bytes.length = 64 ∧
        fieldAt r.bytes 0x00 1 = stateCode (((s.stream k).owed[j]?).getD (s.stream k).state) ∧
        fieldAt r.bytes 0x02 2 = (s.stream k).tag.toNat ∧ fieldAt r.bytes 0x10 8 = w.addr % 2 ^ 64 ∧
        fieldAt r.bytes 0x18 4 = q.toNat ∧ fieldAt r.bytes 0x1C 4 = ((s.stream k).counters.released + 1).toNat)) ∧
  (∀ (k : StreamId) (x : Stream),
    (closeChain k x).chain = { anchor := none, expected := none, wait := .none, bypass := [] } ∧
    (∀ c, x.chain.anchor = some c → c.finished = true →
      (closeChain k x).queue = x.queue ++
        [{ addr := c.addr, bytes := [4#8, 0#8, 0#8, 0#8], tag := .anchorRelease .close c.sequence }] ∧
      (closeChain k x).owed = x.owed ∧ (closeChain k x).progressAddr = x.progressAddr) ∧
    ((∀ c, x.chain.anchor = some c → c.finished = false) →
      (closeChain k x).owed = [] ∧ (closeChain k x).progressAddr = none ∧
      ∀ p, x.progressAddr = some p → ∃ rs, (closeChain k x).queue = x.queue ++ rs ∧ rs.length = x.owed.length ∧
        ∀ (j : Nat) (r : Write) (st : StreamState), rs[j]? = some r → x.owed[j]? = some st →
          r.addr = p ∧ r.tag = .progress ∧ fieldAt r.bytes 0x00 1 = stateCode st))

/-- A skip is done when the skipped span's RELEASED has been reported written (R152, R154, R195): the expected sequence becomes the
skipped span's + 1 whatever it was, the counters take it, the skip request is absent and a NOTIFY flag latches SPAN_NOTIFY. The
chain goes on: the take begins at its next-link, and fails there with DESC_INVALID when that is misaligned (R144); an entry that the
skipped span preceded is dropped, and an anchor in the list gets a bypass entry with the span's address, sequence and next-link; a
FINISHED anchor is dropped with its RELEASED word queued or issued, and the record of the skip waits for it; with none the record
is handed over at once (R190). The model's choices: the chain moves on, and the take begins, only when RELEASED has been reported
written (log entry 12); a skip that is done in STOPPING begins no take, and the stop work follows (log entry 47), the record of the skip first, with the state
STOPPING, and that of STOPPED after it (log entry 48), both behind the anchor's release where one is awaited, each with the state of
its own event (log entry 18); an anchor that has an entry already keeps that entry's address and takes the new sequence and next-link (log
entry 15); the list of entries has no bound of its own (log entry 45). -/
def Obligations.SkipMovesChainOn : Prop :=
  (∀ (s : State) (k : StreamId) (i : Nat) (w : Write) (a : Nat) (h : Header),
    s.issued[i]? = some { stream := k, write := w } → w.tag = .skipReleased →
    s.fetch = some { stream := k, phase := .skip a h } →
    ((s.stream k).state = .running ∨ (s.stream k).state = .awaitLink) →
    ∃ t : State, exec (.writeDone i true) s = .next t ∧ SkipRecorded k a h s t ∧
      (h.link % 64 = 0 → t.fetch = some { stream := k, phase := .header h.link } ∧
        (t.stream k).state = (s.stream k).state ∧ (t.stream k).failing = (s.stream k).failing) ∧
      (h.link % 64 ≠ 0 → t.fetch = none ∧ (t.stream k).state = .halting ∧
        (t.stream k).failing = some { addr := h.link, code := .descInvalid } ∧ (t.stream k).staging = none) ∧
      (t.stream k).position = .span h.link ∧ (t.stream k).chain.expected = some (h.sequence + 1) ∧
      (t.stream k).taken = (s.stream k).taken ∧ (t.stream k).tag = (s.stream k).tag ∧
      (∀ c, (s.stream k).chain.anchor = some c → c.finished = true → h.link % 64 = 0 →
        (t.stream k).owed = (s.stream k).owed ++ [(s.stream k).state]) ∧
      (∀ c, (s.stream k).chain.anchor = some c → c.finished = false → (t.stream k).chain.anchor = some c)) ∧
  ∀ (s : State) (k : StreamId) (i : Nat) (w : Write) (a : Nat) (h : Header),
    s.issued[i]? = some { stream := k, write := w } → w.tag = .skipReleased →
    s.fetch = some { stream := k, phase := .skip a h } → (s.stream k).state ≠ .running → (s.stream k).state ≠ .awaitLink →
    ∃ t : State, exec (.writeDone i true) s = .next t ∧ SkipRecorded k a h s t ∧ t.fetch = none ∧
      (t.stream k).failing = (s.stream k).failing ∧
      ((∀ u ∈ (s.stream k).taken, u.start ≠ none ∨ u.givingBack = true) →
        (t.stream k).position = .span h.link ∧ (t.stream k).chain.expected = some (h.sequence + 1)) ∧
      ((s.stream k).state ≠ .stopping ∨ serving s k = true → (t.stream k).state = (s.stream k).state ∧
        (t.stream k).tag = (s.stream k).tag ∧ (t.stream k).taken = (s.stream k).taken) ∧
      ((s.stream k).state = .stopping → serving s k = false → (s.stream k).taken ≠ [] → (t.stream k).state = .stopping ∧
        (t.stream k).tag = (s.stream k).tag ∧ (t.stream k).taken = allGivenBack (s.stream k).taken) ∧
      ((s.stream k).state = .stopping → serving s k = false → (s.stream k).taken = [] → (t.stream k).state = .stopped ∧
        (t.stream k).tag = (s.stream k).tag + 1 ∧ (t.stream k).taken = [] ∧ latched t.evlatch .stopped = true ∧
        ∀ p, (s.stream k).progressAddr = some p →
          ((s.stream k).owed = [] → (∀ c, (s.stream k).chain.anchor = some c → c.finished = false) →
            UnderWay t k (recordWrite k (t.stream k) p)) ∧
          ∀ c, (s.stream k).chain.anchor = some c → c.finished = true →
            (t.stream k).owed = (s.stream k).owed ++ [.stopping, .stopped])

/-- The issue of writes (R175, R179). Whenever writes are issued, the first is the next write of the first stream, counted upward
from the one whose write was issued last, that can issue one: the front of its queue with what it gathers, its value fixed then when
it is a state word of a finish, and the queue keeps the rest; the others follow alike. The model's DESIGN CHOICE (log entry 8): writes
are issued at the end of every command until none is left that can be issued. A gathered write joins containers of one span whose addresses follow one another, up to 256 bytes, across no 4,096-byte boundary, and nothing
else joins; the model's reading (log entry 8): as many as stand next in the queue and fit. When a write for a span fails, the
queue loses that span's report and state word alone and keeps every other write in order; what may follow is a progress record.
WRITE_DONE (R175): the reported write, and no other, leaves the writes under way, and the next ones are issued at once, none that
can be issued left (log entry 8); nothing else changes
when a container, a log entry, a report, the SKIPPED code, a write of a rollback or a progress record is reported written. The
model's choice (log entry 5): a report of a write that is not under way changes nothing. -/
def Obligations.WritesIssuedInTurnAndGathered : Prop :=
  (∀ s : State,
    (∀ j : StreamId, issuable (drain s) j = false) ∧ ((∀ j : StreamId, issuable s j = false) → drain s = s) ∧
    ∀ j : StreamId, issuable s j = true → ∃ (k : StreamId) (front w : Write) (ws : List Write),
      issuable s k = true ∧
      (∀ i : StreamId, issuable s i = true → (k - (s.writeLast + 1)).val ≤ (i - (s.writeLast + 1)).val) ∧
      (s.stream k).queue = front :: ws ∧ w = resolveFinish (s.stream k) (gather front ws).1 ∧ w.addr = front.addr ∧
      (drain s).issued[s.issued.length]? = some { stream := k, write := w } ∧
      drain s = drain { s.setStream k { s.stream k with queue := (gather front ws).2 } with
        issued := s.issued ++ [{ stream := k, write := w }], writeLast := k }) ∧
  (∀ (w : Write) (ws : List Write), ∃ joined : List Write, ws = joined ++ (gather w ws).2 ∧
    (gather w ws).1.addr = w.addr ∧ (gather w ws).1.tag = w.tag ∧
    (gather w ws).1.bytes = w.bytes ++ joined.flatMap Write.bytes ∧
    (∀ (i : Nat) (v : Write), joined[i]? = some v → v.tag = w.tag ∧
      v.addr = w.addr + w.bytes.length + ((joined.take i).flatMap Write.bytes).length) ∧
    (joined ≠ [] → (∃ tid, w.tag = .container tid) ∧ (gather w ws).1.bytes.length ≤ 256 ∧
      w.addr / 4096 = (w.addr + (gather w ws).1.bytes.length - 1) / 4096) ∧
    (∀ v rest, (gather w ws).2 = v :: rest → joins (gather w ws).1 v = false)) ∧
  (∀ (s : State) (k : StreamId) (tid : Nat) (code : Completion) (u : Taken), findTaken (s.stream k) tid = some u →
    ∃ rs : List Write, ((failTaken k tid code s).stream k).queue =
        ((s.stream k).queue.filter fun w => decide (w.tag ≠ .report tid ∧ w.tag ≠ .finish tid true ∧
          w.tag ≠ .finish tid false)) ++ rs ∧
      (∀ r ∈ rs, r.tag = .progress) ∧ (recordsFailure (s.stream k).state = false → rs = [])) ∧
  (∀ (s : State) (i : Nat) (ok : Bool),
    (s.issued.length ≤ i → exec (.writeDone i ok) s = .next s) ∧
    (i < s.issued.length → ∃ (t : State) (next : List Issued), exec (.writeDone i ok) s = .next t ∧
      t.issued = s.issued.eraseIdx i ++ next ∧ ∀ j : StreamId, issuable t j = false)) ∧
  (∀ (s : State) (k : StreamId) (i : Nat) (w : Write), s.issued[i]? = some { stream := k, write := w } →
    ((∃ tid, w.tag = .container tid ∨ w.tag = .logEntry tid ∨ w.tag = .report tid) ∨ w.tag = .skipCode ∨
      w.tag = .rollback ∨ w.tag = .progress) →
    exec (.writeDone i true) s = .next (drain { s with issued := s.issued.eraseIdx i }))

/-! ## The stages -/

/-- The median vote of a three-lane position with no lane retired and no void (R8, R10): the middle value, disputed exactly
when the spread exceeds D, never unresolved; the outlier is the lane farther from the middle, none at equal distances or
without a dispute (R11).
With fewer than two usable lanes a three-lane position is void (R15): neither disputed nor unresolved, no lane counted,
its origin FETCH exactly when an active lane's sample is a void of origin FETCH.
The two-lane vote with the third lane void or retired (R8, R12, R13), `x` of the lower-numbered lane: within D the mean
rounded half up, in range and undisputed; beyond D the value nearer the prediction from the last two voted values (0 with
fewer), the lower lane at a tie, disputed and unresolved, and the other lane is counted. -/
def Obligations.MedianTwoLaneAndVoidVote : Prop :=
  (∀ (d : Nat) (ls : LaneState) (a b c : Int), ls.retired = none → ∃ lo mid hi : Int,
    [lo, mid, hi].Perm [a, b, c] ∧ lo ≤ mid ∧ mid ≤ hi ∧
    (let r := voteRow d ls (.three (.value a) (.value b) (.value c))
     r.v = .value mid ∧ r.unresolved = false ∧ (r.disputed = true ↔ (d : Int) < hi - lo) ∧
     (hi - lo ≤ d → r.outlier = none) ∧
     ((d : Int) < hi - lo → hi - mid = mid - lo → r.outlier = none) ∧
     ((d : Int) < hi - lo → mid - lo < hi - mid → ∃ l : Lane, r.outlier = some l ∧ [a, b, c][l.val]? = some hi) ∧
     ((d : Int) < hi - lo → hi - mid < mid - lo → ∃ l : Lane, r.outlier = some l ∧ [a, b, c][l.val]? = some lo))) ∧
  (∀ (d : Nat) (ls : LaneState) (a b c : Sample),
    ([usable ls 0 a, usable ls 1 b, usable ls 2 c].filter Option.isSome).length < 2 →
    ∃ o : VoidOrigin, voteRow d ls (.three a b c) = { v := .void o, disputed := false, unresolved := false, outlier := none } ∧
      (o = .fetch ↔ ls.retired ≠ some 0 ∧ a = .void .fetch ∨ ls.retired ≠ some 1 ∧ b = .void .fetch ∨
        ls.retired ≠ some 2 ∧ c = .void .fetch)) ∧
  ∀ (d : Nat) (ls : LaneState) (i j : Lane) (x y : Int) (r : Vote),
    ls.retired ≠ some i → ls.retired ≠ some j →
    (i = 0 ∧ j = 1 ∧ (∃ z, usable ls 2 z = none ∧ r = voteRow d ls (.three (.value x) (.value y) z)) ∨
      i = 0 ∧ j = 2 ∧ (∃ z, usable ls 1 z = none ∧ r = voteRow d ls (.three (.value x) z (.value y))) ∨
      i = 1 ∧ j = 2 ∧ (∃ z, usable ls 0 z = none ∧ r = voteRow d ls (.three z (.value x) (.value y)))) →
    (|x - y| ≤ d → r.disputed = false ∧ r.unresolved = false ∧ r.outlier = none ∧
      ∃ m : Int, r.v = .value m ∧ 2 * m ≤ x + y + 1 ∧ x + y < 2 * m + 1 ∧ (InRange x → InRange y → InRange m)) ∧
    ((d : Int) < |x - y| → r.disputed = true ∧ r.unresolved = true ∧
      ∀ p : Int, (p = match ls.history with | v1 :: v2 :: _ => 2 * v1 - v2 | _ => 0) →
        (|x - p| ≤ |y - p| → r.v = .value x ∧ r.outlier = some j) ∧
        (|y - p| < |x - p| → r.v = .value y ∧ r.outlier = some i))

/-- One counted outlier (R17 to R19): with R = 0 or the raised count at R or less no lane changes, and the window goes on or,
at its 65,536th sample, starts afresh; above R all counts and the counter are zero, and the lane is retired when none is, the
retired one reinstated otherwise. With no outlier the counter advances alike, and no lane changes (R17 step 4).
One position through the Lane Combiner (R9, R14, R17): a voted value enters the prediction history, of two values, and a void leaves
it; a three-lane position is voted and its outlier counted; a one-lane sample is handed on as it is, with no flag and no counting.
Every position keeps the lane state in its range (R14, R17 to R19): a retired lane is never an outlier, the counts never
exceed the samples counted, and the history holds at most two values. -/
def Obligations.OutliersCountedInRange : Prop :=
  (∀ (limit : Nat) (l : Lane) (ls : LaneState),
    (limit = 0 ∨ ls.counts[l] + 1 ≤ limit → (countOutlier limit (some l) ls).2 = .none ∧
      (countOutlier limit (some l) ls).1.retired = ls.retired ∧
      (ls.counter + 1 ≠ 65536 → (countOutlier limit (some l) ls).1.counter = ls.counter + 1 ∧
        ∀ m : Lane, (countOutlier limit (some l) ls).1.counts[m] = if m = l then ls.counts[l] + 1 else ls.counts[m]) ∧
      (ls.counter + 1 = 65536 → (countOutlier limit (some l) ls).1.counter = 0 ∧
        ∀ m : Lane, (countOutlier limit (some l) ls).1.counts[m] = 0)) ∧
    (0 < limit → limit < ls.counts[l] + 1 → (countOutlier limit (some l) ls).1.counter = 0 ∧
      (∀ m : Lane, (countOutlier limit (some l) ls).1.counts[m] = 0) ∧
      (ls.retired = none → (countOutlier limit (some l) ls).1.retired = some l ∧
        (countOutlier limit (some l) ls).2 = .retirement) ∧
      (ls.retired ≠ none → (countOutlier limit (some l) ls).1.retired = none ∧
        (countOutlier limit (some l) ls).2 = .reinstatement))) ∧
  (∀ (limit : Nat) (ls : LaneState), (countOutlier limit none ls).2 = .none ∧
    (countOutlier limit none ls).1.retired = ls.retired ∧
    (ls.counter + 1 ≠ 65536 → (countOutlier limit none ls).1.counter = ls.counter + 1 ∧
      ∀ m : Lane, (countOutlier limit none ls).1.counts[m] = ls.counts[m]) ∧
    (ls.counter + 1 = 65536 → (countOutlier limit none ls).1.counter = 0 ∧
      ∀ m : Lane, (countOutlier limit none ls).1.counts[m] = 0)) ∧
  (∀ (d limit : Nat) (row : LaneRow) (ls after : LaneState),
    after = { ls with history :=
      match (combine d limit row ls).1.v with | .value x => x :: ls.history.take 1 | .void _ => ls.history } →
    (combine d limit row ls).2.1.history = after.history ∧
    (∀ a b c : Sample, row = .three a b c → (combine d limit row ls).1 = voteRow d ls row ∧
      (combine d limit row ls).2 = countOutlier limit (voteRow d ls row).outlier after) ∧
    ∀ a : Sample, row = .one a →
      combine d limit row ls = ({ v := a, disputed := false, unresolved := false, outlier := none }, after, .none)) ∧
  ∀ (d limit : Nat) (row : LaneRow) (ls : LaneState), LanesHold ls → LanesHold (combine d limit row ls).2.1

/-- The mark schedule (R24 to R27): accepted marks and kept look-ahead marks each have strictly increasing positions and are
taken from the list in its order; one entry more at the list's end is accepted, or kept, exactly when it is of that class and
above every one before it; every entry is accepted, kept or counted as ignored. -/
def Obligations.MarkScheduleBuilt : Prop :=
  ∀ (start count : Nat) (marks : List Mark),
    (buildSchedule start count marks).accepted.Pairwise (fun m n => m.offset < n.offset) ∧
    (buildSchedule start count marks).lookAhead.Pairwise (fun m n => m.offset < n.offset) ∧
    (∀ m ∈ (buildSchedule start count marks).accepted, start ≤ m.offset ∧ m.offset < start + count) ∧
    (∀ m ∈ (buildSchedule start count marks).lookAhead,
      start + count ≤ m.offset ∧ m.offset ≤ start + count + 4095) ∧
    (∀ e : Mark, (buildSchedule start count (marks ++ [e])).accepted = (buildSchedule start count marks).accepted ++
      if e.offset < count ∧ ∀ m ∈ (buildSchedule start count marks).accepted, m.offset < start + e.offset
      then [{ e with offset := start + e.offset }] else []) ∧
    (∀ e : Mark, (buildSchedule start count (marks ++ [e])).lookAhead = (buildSchedule start count marks).lookAhead ++
      if count ≤ e.offset ∧ e.offset ≤ count + 4095 ∧
        ∀ m ∈ (buildSchedule start count marks).lookAhead, m.offset < start + e.offset
      then [{ e with offset := start + e.offset }] else []) ∧
    (buildSchedule start count marks).accepted.length + (buildSchedule start count marks).lookAhead.length +
      marksIgnored count marks = marks.length

/-- The perforation bin before a known next mark (R30): that mark is the first accepted one above the position, else the
first look-ahead mark; the bin is floor(64 (n - pk) / (pnext - pk)), at most 63, and no phase overrun.
With no known next mark (R31, R32): the bin is extrapolated from the last complete period L and held at 63, a phase
overrun exactly when n - pk reaches L; with no mark passed, or no period either, there is no phase. -/
def Obligations.PerforationPhase : Prop :=
  (∀ (sched : Schedule) (ms : MarkState) (n p q : Nat), ms.pk = some p → p ≤ n →
    sched.accepted.Pairwise (fun m n => m.offset < n.offset) →
    ((∃ m ∈ sched.accepted, m.offset = q ∧ n < q ∧ ∀ m' ∈ sched.accepted, n < m'.offset → q ≤ m'.offset) ∨
      (∀ m ∈ sched.accepted, m.offset ≤ n) ∧ n < q ∧ ∃ m rest, sched.lookAhead = m :: rest ∧ m.offset = q) →
    phaseAt sched ms n = some (64 * (n - p) / (q - p), false) ∧ 64 * (n - p) / (q - p) ≤ 63) ∧
  (∀ (sched : Schedule) (ms : MarkState) (n : Nat),
    (ms.pk = none → phaseAt sched ms n = none) ∧
    ((∀ m ∈ sched.accepted, m.offset ≤ n) → sched.lookAhead = [] →
      (ms.period = none → phaseAt sched ms n = none) ∧
      ∀ p l : Nat, ms.pk = some p → ms.period = some l →
        phaseAt sched ms n = some (min 63 (64 * (n - p) / l), decide (l ≤ n - p))))

/-- One position through mark tracking (R28, R33 to R35, R37). An accepted mark there completes a period from the mark before it
and becomes the last mark; with FRAME_START it sets the frame flags, and the position carries the closed frame's HISS_REF flag as
its reference-frame end; with no mark there these stay and no attribute of a mark is set. The position is protected by the frame
it stands in or by PROTECT_ALL, and lies in a bump by a splice mark of its span or by the pending end. The pending end lapses once
passed; at the span's last position the bumps that run past it set or raise it. The perforation bin and the phase overrun handed
on are those of the position's phase, by the last mark and the period after the position's own mark (R28, R30 to R32, R38). -/
def Obligations.MarkStateTracked : Prop :=
  ∀ (sched : Schedule) (width start last n : Nat) (protectAll : Bool) (ms : MarkState),
    sched.accepted.Pairwise (fun m m' => m.offset < m'.offset) →
    let r := track sched width start last protectAll n ms
    (∀ m ∈ sched.accepted, m.offset = n →
      r.2.pk = some n ∧
      r.2.period = (match ms.pk with | none => ms.period | some p => some (n - p)) ∧
      r.1.splice = m.splice ∧
      (m.frameStart = true → r.2.protect = m.protect ∧ r.2.hissRef = m.hissRef ∧ r.1.refEnd = ms.hissRef) ∧
      (m.frameStart = false → r.2.protect = ms.protect ∧ r.2.hissRef = ms.hissRef ∧ r.1.refEnd = false)) ∧
    ((∀ m ∈ sched.accepted, m.offset ≠ n) →
      r.2.pk = ms.pk ∧ r.2.period = ms.period ∧ r.2.protect = ms.protect ∧ r.2.hissRef = ms.hissRef ∧
      r.1.refEnd = false ∧ r.1.splice = false) ∧
    (∀ after : MarkState, after.pk = r.2.pk → after.period = r.2.period →
      (phaseAt sched after n = none → r.1.bin = none ∧ r.1.overrun = false) ∧
      ∀ (b : Nat) (overrun : Bool), phaseAt sched after n = some (b, overrun) → r.1.bin = some b ∧ r.1.overrun = overrun) ∧
    (r.1.prot = true ↔ r.2.protect = true ∨ protectAll = true) ∧
    (r.1.bump = true ↔ (∃ m ∈ sched.accepted, m.splice = true ∧ start ≤ n ∧ m.offset ≤ n + width ∧ n ≤ m.offset + width) ∨
      ∃ e, ms.bumpEnd = some e ∧ n ≤ e) ∧
    (n ≠ last → ∀ e, r.2.bumpEnd = some e ↔ ms.bumpEnd = some e ∧ n < e) ∧
    (n = last → ∀ e, r.2.bumpEnd = some e ↔
      ((ms.bumpEnd = some e ∧ n < e) ∨ ∃ m ∈ sched.accepted, m.splice = true ∧ m.offset + width = e ∧ last < e) ∧
      (∀ m ∈ sched.accepted, m.splice = true → last < m.offset + width → m.offset + width ≤ e) ∧
      (∀ b, ms.bumpEnd = some b → n < b → b ≤ e))

/-- The hum subtraction of a value (R46 to R48): the terms present, rounded half up to the estimate h, and u = v - h clamped
to the internal range, the clamp told exactly when it changed the value; a void passes as it is.
A template bin's update (R51, R52): the delta is u 2^(8-k) exactly for k up to 8 and floor((u + 2^(k-9)) / 2^(k-8)) above,
the sum is clamped to the bin's bounds, no other bin changes, and the template keeps its form.
Eligibility (R50): a void, a disputed and a flagged sample update neither template; any other updates the bin of its phase when the
rate is not 0, and the bin of the line counter when P is not 0, with the same u. The line counter (R43) advances by 1 after every
sample and returns to 0 on reaching P, and is 0 while P is 0. A splice reset request (R55) zeroes the templates and the counter by
the setting, before the subtraction, and a sample without one zeroes nothing. -/
def Obligations.HumSubtractedAndLearned : Prop :=
  (∀ (kp period : Nat) (b : Option Nat) (h : HumState),
    (∀ o, cancelHum kp period b h (.void o) = (.void o, false)) ∧
    ∀ x est : Int,
      est = ((if kp = 0 then 0 else match b with | none => 0 | some i => bin h.perf i) +
        (if period = 0 then 0 else bin h.line h.counter) + 128) / 256 →
      cancelHum kp period b h (.value x) = (.value (max (-8388607) (min 8388607 (x - est))),
        decide (x - est < -8388607 ∨ 8388607 < x - est)) ∧
      SampleHolds (cancelHum kp period b h (.value x)).1) ∧
  (∀ (k b : Nat) (u : Int) (t : Template), templateCanonical t = true →
    bin (learnBin k b u t) b = max (-2147483392) (min 2147483392 (bin t b +
      if k ≤ 8 then u * 2 ^ (8 - k) else (u + 2 ^ (k - 9)) / 2 ^ (k - 8))) ∧
    (∀ c, c ≠ b → bin (learnBin k b u t) c = bin t c) ∧ templateCanonical (learnBin k b u t) = true) ∧
  (∀ (p : Profile) (b : Option Nat) (u : Sample) (disputed flagged : Bool) (h : HumState),
    (isVoid u = true ∨ disputed = true ∨ flagged = true → learnIfEligible p b u disputed flagged h = h) ∧
    ∀ x : Int, u = .value x → disputed = false → flagged = false →
      learnIfEligible p b u disputed flagged h =
        { perf := match b with
            | none => h.perf
            | some i => if p.perfShift = 0 then h.perf else learnBin p.perfShift i x h.perf
          line := if p.linePeriod = 0 then h.line else learnBin p.lineShift h.counter x h.line
          counter := h.counter }) ∧
  (∀ (period : Nat) (h : HumState), (advanceLine period h).perf = h.perf ∧ (advanceLine period h).line = h.line ∧
    (period = 0 → (advanceLine period h).counter = 0) ∧
    (h.counter < period → (advanceLine period h).counter = (h.counter + 1) % period ∧
      (advanceLine period h).counter < period)) ∧
  (∀ h : HumState, spliceReset 0 h = h ∧
    spliceReset 1 h = { perf := { cells := [] }, line := h.line, counter := h.counter } ∧
    spliceReset 2 h = { perf := { cells := [] }, line := { cells := [] }, counter := 0 }) ∧
  (∀ (sp : SpanInfo) (row : LaneRow) (r : Run) (vote : Vote) (attrs : Attributes) (hum : HumState),
    vote = (combine r.ctx.profile.disputeTol r.ctx.profile.retireLimit row r.ctx.lanes).1 →
    attrs = (track sp.sched r.ctx.profile.spliceWidth sp.start (lastPosition sp) sp.protectAll r.ctx.position r.ctx.marks).1 →
    hum = (if attrs.splice = true then spliceReset r.ctx.profile.spliceHumReset r.ctx.hum else r.ctx.hum) →
    (frontStages sp row r).1.u = (cancelHum r.ctx.profile.perfShift r.ctx.profile.linePeriod attrs.bin hum vote.v).1 ∧
    (frontStages sp row r).2.ctx.hum = advanceLine r.ctx.profile.linePeriod
      (learnIfEligible r.ctx.profile attrs.bin (frontStages sp row r).1.u vote.disputed (frontStages sp row r).1.flagged hum))

/-- Residual, detection, noise and classification (R63 to R66), with the noise level kept in its range (R62): a sample that is
not examined moves no noise and is flagged when void, unresolved or in a bump; a detected sample is flagged and moves no
noise; a quiet one moves it and is flagged when unresolved or in a bump.
One sample through the front path (R9, R28, R38, R59, R67 steps 1 to 6): the lane and mark states are those that the Lane Combiner
and mark tracking leave, the noise level is its classification's, and it enters the u history, of two samples, and the
held-sample store behind those held; its held record carries its position, its span, the vote's unresolved flag, the attributes of
mark tracking, and |e| and the flag of its classification. -/
def Obligations.ClassificationAndNoise : Prop :=
  (∀ (p : Profile) (c : ClickState) (u : Sample) (unresolved bump : Bool),
    16 * (p.noiseMin : Int) ≤ c.noise → c.noise ≤ 16 * 8388607 → p.noiseMin ≤ 8388607 →
    let r := classify p c u unresolved bump
    (16 * (p.noiseMin : Int) ≤ r.noise ∧ r.noise ≤ 16 * 8388607) ∧
    ((∀ x y z rest, u = .value x → c.uHist ≠ .value y :: .value z :: rest) →
      r.absE = none ∧ r.noise = c.noise ∧ (r.flagged = true ↔ isVoid u = true ∨ unresolved = true ∨ bump = true)) ∧
    (∀ (x y z : Int) (rest : List Sample), u = .value x → c.uHist = .value y :: .value z :: rest →
      r.absE = some (x - 2 * y + z).natAbs ∧
      (128 * |x - 2 * y + z| > p.clickFactor * c.noise ∧ |x - 2 * y + z| > p.clickFloor →
        r.flagged = true ∧ r.noise = c.noise) ∧
      (¬ (128 * |x - 2 * y + z| > p.clickFactor * c.noise ∧ |x - 2 * y + z| > p.clickFloor) →
        (r.flagged = true ↔ unresolved = true ∨ bump = true) ∧
        r.noise = max (16 * (p.noiseMin : Int)) (min (16 * 8388607)
          (c.noise + (16 * |x - 2 * y + z| - c.noise + 32) / 64))))) ∧
  ∀ (sp : SpanInfo) (row : LaneRow) (r : Run),
    let p := r.ctx.profile
    let combined := combine p.disputeTol p.retireLimit row r.ctx.lanes
    let tracked := track sp.sched p.spliceWidth sp.start (sp.start + sp.count - 1) sp.protectAll r.ctx.position r.ctx.marks
    let h := (frontStages sp row r).1
    let r' := (frontStages sp row r).2
    let classified := classify p r.ctx.click h.u combined.1.unresolved tracked.1.bump
    h.pos = r.ctx.position ∧ h.span = sp.start ∧ h.unresolved = combined.1.unresolved ∧ h.prot = tracked.1.prot ∧
    h.bump = tracked.1.bump ∧ h.refEnd = tracked.1.refEnd ∧ h.absE = classified.absE ∧ h.flagged = classified.flagged ∧
    r'.ctx.lanes = combined.2.1 ∧ r'.ctx.marks = tracked.2 ∧ r'.ctx.position = r.ctx.position + 1 ∧
    r'.ctx.click = { r.ctx.click with
      noise := classified.noise, uHist := h.u :: r.ctx.click.uHist.take 1, held := r.ctx.click.held ++ [h] } ∧
    r'.ctx.hiss = r.ctx.hiss ∧ r'.ctx.profile = p ∧ r'.ctx.config = r.ctx.config ∧ r'.ctx.reelEnd = r.ctx.reelEnd ∧
    r'.ctx.pendingClamp = r.ctx.pendingClamp ∧ r'.live = r.live ∧ r'.emits = r.emits

/-- Repair windows (R67 to R71, R73, R78). With no window open, a sample that is not flagged opens none, and a flagged one opens a
window: it starts at the greatest of the sample less the guard, the previous window's end + 1 and the oldest held sample, the
held samples below the start are released unrepaired, the last output released is the left anchor, and the content is that of the
held samples from the start on. A flagged sample grows the open window to itself with what the quiet run held; the window is LONG
from when its provisional length exceeds its Lmax; a sample that is not flagged joins the quiet run, and the fourth in a row
closes the window at the last flagged sample plus the guard. At 4,096 samples a window closes, whatever the sample, which is then
handled with no window open. After each sample the held samples at or below it less the guard are released unrepaired, oldest
first, while no window or a LONG one is open, and none while another is. -/
def Obligations.WindowsOpenGrowAndClose : Prop :=
  (∀ (p : Profile) (h : Held) (before : List Held) (r : Run),
    r.ctx.click.window = none → r.ctx.click.held = before ++ [h] → (before ++ [h]).Pairwise (fun x y => x.pos < y.pos) →
    (∀ e, r.ctx.click.prevEnd = some e → e < h.pos) →
    (h.flagged = false → updateWindow p h r = r) ∧
    (h.flagged = true → ∃ (out : List Held) (first : Held) (rest : List Held) (w : Window) (r1 : Run),
      before ++ [h] = out ++ first :: rest ∧ (∀ x ∈ out, x.pos < w.start) ∧ w.start ≤ first.pos ∧
      w.start ≤ h.pos ∧ h.pos ≤ w.start + p.guard ∧ (∀ e, r.ctx.click.prevEnd = some e → e < w.start) ∧
      (∀ x, (before ++ [h]).head? = some x → x.pos ≤ w.start) ∧
      (w.start + p.guard = h.pos ∨ r.ctx.click.prevEnd = some (w.start - 1) ∧ 0 < w.start ∨
        ∃ x, (before ++ [h]).head? = some x ∧ x.pos = w.start) ∧
      w.span = first.span ∧ w.nlast = h.pos ∧ w.quiet = 0 ∧ w.guard = p.guard ∧ w.longest = p.repairMax ∧
      (w.long = true ↔ p.repairMax < h.pos + p.guard + 1 - w.start) ∧ w.tail = [] ∧
      w.content = (first :: rest).foldl addContent emptyContent ∧
      w.left = (match out.getLast? with | none => r.ctx.click.lastOut | some x => some x.u) ∧
      r1 = out.foldl (fun t x => passSample x t)
        { r with ctx := { r.ctx with click := { r.ctx.click with held := first :: rest } } } ∧
      updateWindow p h r = { r1 with ctx := { r1.ctx with click := { r1.ctx.click with window := some w } } })) ∧
  (∀ (p : Profile) (h : Held) (w : Window) (r : Run), r.ctx.click.window = some w →
    (h.pos ≠ w.start + 4096 →
      (h.flagged = true → updateWindow p h r = { r with ctx := { r.ctx with click := { r.ctx.click with
        window := some { w with
          nlast := h.pos
          quiet := 0
          long := w.long || decide (w.longest < h.pos + w.guard + 1 - w.start)
          content := (w.tail ++ [h]).foldl addContent w.content
          tail := [] } } } }) ∧
      (h.flagged = false → w.quiet ≠ 3 → updateWindow p h r = { r with ctx := { r.ctx with click := { r.ctx.click with
        window := some { w with quiet := w.quiet + 1, tail := w.tail ++ [h] } } } }) ∧
      (h.flagged = false → w.quiet = 3 → updateWindow p h r =
        closeWindow { w with quiet := 4, tail := w.tail ++ [h] } (w.nlast + w.guard) false r)) ∧
    (h.pos = w.start + 4096 →
      (closeWindow w (w.start + 4095) false r).ctx.click.window = none ∧
      updateWindow p h r = updateWindow p h (closeWindow w (w.start + 4095) false r))) ∧
  (∀ (g c : Nat) (out rest : List Held) (r : Run), r.ctx.click.held = out ++ rest → (∀ x ∈ out, x.pos + g ≤ c) →
    (∀ x ∈ rest, c < x.pos + g) →
    ((∀ w, r.ctx.click.window = some w → w.long = true) → releaseAfter g c r = out.foldl (fun t x => passSample x t)
      { r with ctx := { r.ctx with click := { r.ctx.click with held := rest } } }) ∧
    (∀ w, r.ctx.click.window = some w → w.long = false → releaseAfter g c r = r))

/-- A window closes with its end at `e` (R71, R72, R74 to R76, R82, R84, R85): the content takes the samples of the quiet run up to
the end; the entry of its kind is handed on with the length e - s + 1, and a span that waited for the window alone completes, whose last
sample R78 has released before (R78 against R81: the model's DESIGN CHOICE, log entry 38);
then the window's samples are released, oldest first: those of a PROTECTED or LONG window unrepaired, and any other's on the
line from the recorded left anchor to the value of the first sample after the end. With no left anchor, none released or a void, the
left is the right one; at a flush there is no right one and the left is taken for it, and with neither every sample is 0.
A flush closes the open window at the smaller of nlast + g and the last sample, and releases everything held; the u history and
the noise level stay (R82, R83).
Every repaired value (R75): the line rounded half up, between the anchors, and so within the internal range. -/
def Obligations.WindowRepairedOrPassed : Prop :=
  (∀ (w : Window) (e : Nat) (flush : Bool) (r : Run) (inside rest : List Held) (content : Content) (kind : Kind)
      (right : Option Int),
    r.ctx.click.held = inside ++ rest → (∀ x ∈ inside, x.pos ≤ e) → (∀ x ∈ rest, e < x.pos) →
    content = (w.tail.filter fun x => decide (x.pos ≤ e)).foldl addContent w.content → kind = windowKind w.long content →
    (flush = true ∨ rest = [] → right = none) →
    (flush = false → ∀ x xs, rest = x :: xs → right = match x.u with | .value v => some v | .void _ => none) →
    ∃ (r1 : Run) (es : List Emit),
      r1.ctx.click = { r.ctx.click with window := none, prevEnd := some e, held := rest } ∧
      r1.ctx.hiss = r.ctx.hiss ∧ r1.ctx.config = r.ctx.config ∧ r1.live = r.live ∧
      r1.emits = (handEntry w.span w.start (e + 1 - w.start) kind content r).emits ++ es ∧
      (∀ x ∈ es, ∃ span y, x = .complete span y) ∧
      r1.ctx.tallies <:+ (handEntry w.span w.start (e + 1 - w.start) kind content r).ctx.tallies ∧
      (kind = .prot ∨ kind = .long → closeWindow w e flush r = inside.foldl (fun t x => passSample x t) r1) ∧
      (kind ≠ .prot → kind ≠ .long → closeWindow w e flush r =
        (inside.zip (List.range' 1 inside.length)).foldl (fun t x => repairSample x.1
          (match w.left, right with
            | some (.value a), some b => a + (2 * (b - a) * x.2 + ((e + 1 - w.start : Nat) + 1)) / (2 * ((e + 1 - w.start : Nat) + 1))
            | some (.value a), none => a
            | _, some b => b
            | _, none => 0) t) r1)) ∧
  (∀ (n : Nat) (r : Run), (flushClick n r).ctx.click.held = [] ∧ (flushClick n r).ctx.click.window = none ∧
    (flushClick n r).ctx.click.uHist = r.ctx.click.uHist ∧ (flushClick n r).ctx.click.noise = r.ctx.click.noise ∧
    (r.ctx.click.window = none → flushClick n r = r.ctx.click.held.foldl (fun t x => passSample x t)
      { r with ctx := { r.ctx with click := { r.ctx.click with held := [] } } }) ∧
    (∀ (w : Window) (r1 : Run), r.ctx.click.window = some w → r1 = closeWindow w (min (w.nlast + w.guard) n) true r →
      flushClick n r = r1.ctx.click.held.foldl (fun t x => passSample x t)
        { r1 with ctx := { r1.ctx with click := { r1.ctx.click with held := [] } } })) ∧
  (∀ (a b : Int) (len i : Nat), 1 ≤ i → i ≤ len →
    (let w := lineValue a b len i
     2 * (len + 1) * (w - a) ≤ 2 * (b - a) * i + (len + 1) ∧
     2 * (b - a) * i + (len + 1) < 2 * (len + 1) * (w - a + 1) ∧ min a b ≤ w ∧ w ≤ max a b ∧
     (InRange a → InRange b → InRange w)) ∧
    repairValue (some a) none len i = a ∧ repairValue none (some b) len i = b ∧ repairValue none none len i = 0)

/-- Every sample keeps the hold-back in order and bounded, and what leaves it is handed on once (R59, R68 to R71, R78 to R80, R82):
the held samples are still the latest ones in order, never more than 100; the samples that leave the store are its oldest, each
handed on as one container in order, with no gap and no repeat; and at the last sample of a LAST span the window work of that
sample is followed by a flush there, so everything held is released, repaired or passed as WindowRepairedOrPassed says, no window
stays open and the reel ends (R82, R83, R115). -/
def Obligations.HoldBackBounded : Prop :=
  ∀ (sp : SpanInfo) (row : LaneRow) (r : Run),
    (ProfileLimited r.ctx.profile → ClickHolds r.ctx.click r.ctx.position →
      (sampleStep sp r row).ctx.position = r.ctx.position + 1 ∧
      ClickHolds (sampleStep sp r row).ctx.click (sampleStep sp r row).ctx.position ∧
      (sampleStep sp r row).ctx.click.held.length ≤ 100) ∧
    (∃ out : List Held, r.ctx.click.held ++ [(frontStages sp row r).1] = out ++ (sampleStep sp r row).ctx.click.held ∧
      containersOf (sampleStep sp r row).emits = containersOf r.emits ++ out.map fun h => (h.span, h.pos - h.span)) ∧
    (r.ctx.position = lastPosition sp → sp.last = true → (sampleStep sp r row).ctx.click.held = [] ∧
      (sampleStep sp r row).ctx.click.window = none ∧ (sampleStep sp r row).ctx.reelEnd = true ∧
      ∀ f : Run, f = flushClick (lastPosition sp)
          (updateWindow r.ctx.profile (frontStages sp row r).1 (frontStages sp row r).2) →
        sampleStep sp r row = { f with ctx := { f.ctx with reelEnd := true } }) ∧
    (r.ctx.position ≠ lastPosition sp ∨ sp.last = false → (sampleStep sp r row).ctx.reelEnd = r.ctx.reelEnd ∧
      sampleStep sp r row = releaseAfter r.ctx.profile.guard r.ctx.position
        (updateWindow r.ctx.profile (frontStages sp row r).1 (frontStages sp row r).2))

/-- The tallies of a span (R16, R18 to R20, R31, R47, R77, R101, R106). A voted sample adds to the counts of its own span: disputed,
unresolved, a retirement or a reinstatement, a phase overrun, a hum clamp; at the span's last sample the set of active lanes after
it is recorded; nothing else but the voted signature changes, and the block counts the lane changes.
A released sample adds one output sample to its span's, and one saturation when a clamp of the Hiss Expander or of the Output
Formatter changed it; at the span's last sample Th at end is recorded. Passed, a void adds one to the voids passed; repaired, the
sample adds one to the repaired samples and a void one to the voids repaired. The output is the last output released, and nothing
else but the output signature changes; the span's tallies then stay, or leave with its completion. -/
def Obligations.ReportTalliesCounted : Prop :=
  (∀ (sp : SpanInfo) (row : LaneRow) (r : Run) (y : Tally) (vote : Vote) (lanes : LaneState) (change : LaneChange)
      (attrs : Attributes) (marks : MarkState) (hum : HumState),
    combine r.ctx.profile.disputeTol r.ctx.profile.retireLimit row r.ctx.lanes = (vote, lanes, change) →
    track sp.sched r.ctx.profile.spliceWidth sp.start (lastPosition sp) sp.protectAll r.ctx.position r.ctx.marks =
      (attrs, marks) →
    hum = (if attrs.splice = true then spliceReset r.ctx.profile.spliceHumReset r.ctx.hum else r.ctx.hum) →
    r.ctx.tallies.find? (fun t => decide (t.start = sp.start)) = some y →
    (frontStages sp row r).2.laneChanges = r.laneChanges + (if change = .none then 0 else 1) ∧
    ∃ crc : Word32, (frontStages sp row r).2.ctx.tallies.find? (fun t => decide (t.start = sp.start)) = some { y with
      disputed := y.disputed + (if vote.disputed = true then 1 else 0)
      unresolved := y.unresolved + (if vote.unresolved = true then 1 else 0)
      retirements := y.retirements + (if change = .retirement then 1 else 0)
      reinstatements := y.reinstatements + (if change = .reinstatement then 1 else 0)
      phaseOverruns := y.phaseOverruns + (if attrs.overrun = true then 1 else 0)
      humClamps := y.humClamps +
        (if (cancelHum r.ctx.profile.perfShift r.ctx.profile.linePeriod attrs.bin hum vote.v).2 = true then 1 else 0)
      mask := if r.ctx.position = sp.start + sp.count - 1 then some (activeMask r.ctx.config lanes) else y.mask
      votedCrc := crc }) ∧
  (∀ (h : Held) (w : Sample) (r released : Run) (y : Tally) (repaired voidRepaired voidPassed : Nat),
    r.ctx.tallies.find? (fun t => decide (t.start = h.span)) = some y →
    (released = passSample h r ∧ w = h.u ∧ repaired = 0 ∧ voidRepaired = 0 ∧
        voidPassed = (if isVoid h.u = true then 1 else 0) ∨
      ∃ x : Int, released = repairSample h x r ∧ w = .value x ∧ repaired = 1 ∧
        voidRepaired = (if isVoid h.u = true then 1 else 0) ∧ voidPassed = 0) →
    let e := hissSample h.span h.refEnd w r.ctx.hiss
    released.ctx.click = { r.ctx.click with lastOut := some w } ∧ released.ctx.hiss = e.2.2 ∧
    ∃ (z : Tally) (crc : Word32) (rest : List Emit), released.emits = r.emits ++ rest ∧
      (z ∈ released.ctx.tallies ∨ .complete h.span z ∈ rest) ∧
      z = { y with
        samplesOutput := y.samplesOutput + 1
        saturations := y.saturations + (if e.2.1 = true ∨ (formatSample r.ctx.config e.1).2 = true then 1 else 0)
        repaired := y.repaired + repaired
        voidRepaired := y.voidRepaired + voidRepaired
        voidPassed := y.voidPassed + voidPassed
        thEnd := if y.start + y.count = h.pos + 1 then some (e.2.2.th / 256).toNat else y.thEnd
        outputCrc := crc })

/-- A sample through the Hiss Expander (R91, R92, R94 to R100). A sample of another span than the previous one first puts the
pending parameters, if present, in use (R91). A reference-frame end attribute then sets Th from the envelope before the sample,
clamp(floor(E M / 4), 256 Thmin, 256 Thmax) (R100). A void passes as a void and leaves the tracker and the envelope. For a value w
the tracker moves to Lq + floor((256 w - Lq + 2^(a-1)) / 2^a) (R95), low is floor((Lq + 128) / 256) and high is w - low, the envelope
moves to E + floor((256 |high| - E + 2^(r-1)) / 2^r) (R96), and the expanded sample is low + floor((high gh + 128) / 256), clamped
to the internal range, a clamp that changes it counted as a saturation (R98). All stay in their ranges (R92).
The hiss gain (R97): 256 when Th is 0 or E is at or above it, else max(Gmin, floor(256 E / Th)); always within Gmin to
256. -/
def Obligations.HissExpansion : Prop :=
  (∀ (span : Nat) (refEnd : Bool) (w : Sample) (h : HissState), SampleHolds w → HissHolds h → HissLimited h.inUse →
    (∀ p, h.pendingParams = some p → HissLimited p) →
    let r := hissSample span refEnd w h
    let p := r.2.2.inUse
    SampleHolds r.1 ∧ HissHolds r.2.2 ∧ HissLimited p ∧
    r.2.2.prevSpan = some span ∧
    (h.prevSpan = some span → p = h.inUse ∧ r.2.2.pendingParams = h.pendingParams) ∧
    (h.prevSpan ≠ some span → r.2.2.pendingParams = none ∧
      p = match h.pendingParams with | none => h.inUse | some q => q) ∧
    (refEnd = false → r.2.2.th = h.th) ∧
    (refEnd = true → r.2.2.th = max (256 * (p.thMin : Int)) (min (256 * (p.thMax : Int)) ((h.env * p.refMult).fdiv 4))) ∧
    (∀ o, w = .void o → r.1 = .void o ∧ r.2.1 = false ∧ r.2.2.low = h.low ∧ r.2.2.env = h.env) ∧
    (∀ x : Int, w = .value x → ∀ low high o : Int,
      low = (r.2.2.low + 128).fdiv 256 → high = x - low →
      o = low + (high * hissGain p.gainFloor r.2.2.env r.2.2.th + 128).fdiv 256 →
      r.2.2.low = h.low + (256 * x - h.low + 2 ^ (p.splitShift - 1)).fdiv (2 ^ p.splitShift) ∧
      r.2.2.env = h.env + (256 * |high| - h.env + 2 ^ (p.envShift - 1)).fdiv (2 ^ p.envShift) ∧
      r.1 = .value (max (-8388607) (min 8388607 o)) ∧ (r.2.1 = true ↔ o < -8388607 ∨ 8388607 < o))) ∧
  (∀ (gmin : Nat) (env th : Int), gmin ≤ 256 → 0 ≤ env → 0 ≤ th →
    (th = 0 ∨ th ≤ env → hissGain gmin env th = 256) ∧
    (th ≠ 0 → env < th → (∃ q : Int, q * th ≤ 256 * env ∧ 256 * env < (q + 1) * th ∧
      hissGain gmin env th = max (gmin : Int) q)) ∧
    (gmin : Int) ≤ hissGain gmin env th ∧ hissGain gmin env th ≤ 256)

/-- Lane containers decode as two's complement numbers in their byte order (R3 to R5): the most negative code is a void of
origin SCANNER, an L16 value is 256 times the number, and the fourth byte of an L24 container has no effect; the i-th container
of a block lies at i times its size (R2).
Output values (R103, R104): L24 keeps the value; L16 rounds half up to units of 256 and clamps to 32,767 in magnitude, so
a value never becomes the void code, and a multiple of 256 returns to its 16-bit value; a sample is written in the stream's output
format and byte order (R105, R106), a value with whether its rounding clamped it; a void becomes the void code and
counts no saturation. An output container read back as a lane container of its format and order gives the value back, and a
void code a void of origin SCANNER, for every value the format holds; the sign byte repeats bit 23 (R105). -/
def Obligations.ContainersDecodeAndRoundTrip : Prop :=
  ((∀ b0 b1 : Byte, decodeL16 .little b0 b1 =
    if (b1 ++ b0).toInt = -32768 then .void .scanner else .value (256 * (b1 ++ b0).toInt)) ∧
  (∀ b0 b1 : Byte, decodeL16 .big b0 b1 = decodeL16 .little b1 b0) ∧
  (∀ b0 b1 b2 b3 : Byte, decodeL24 .little b0 b1 b2 b3 =
    if (b2 ++ b1 ++ b0).toInt = -8388608 then .void .scanner else .value (b2 ++ b1 ++ b0).toInt) ∧
  (∀ b0 b1 b2 b3 : Byte, decodeL24 .big b0 b1 b2 b3 = decodeL24 .little b3 b2 b1 b0) ∧
  (∀ (order : ByteOrder) (b0 b1 b2 b3 : Byte),
    SampleHolds (decodeL16 order b0 b1) ∧ SampleHolds (decodeL24 order b0 b1 b2 b3)) ∧
  (∀ (cfg : StreamConfig) (bytes : List Byte) (i : Nat) (b0 b1 b2 b3 : Byte),
    (cfg.laneFormat = .l16 → bytes[2 * i]? = some b0 → bytes[2 * i + 1]? = some b1 →
      (decodeContainers cfg bytes)[i]? = some (decodeL16 cfg.laneOrder b0 b1)) ∧
    (cfg.laneFormat = .l24 → bytes[4 * i]? = some b0 → bytes[4 * i + 1]? = some b1 → bytes[4 * i + 2]? = some b2 →
      bytes[4 * i + 3]? = some b3 → (decodeContainers cfg bytes)[i]? = some (decodeL24 cfg.laneOrder b0 b1 b2 b3)))) ∧
  ((∀ o : Int, outputValue .l24 o = (o, false)) ∧
  (∀ o : Int, outputValue .l16 o = (max (-32767) (min 32767 ((o + 128) / 256)),
    decide ((o + 128) / 256 < -32767 ∨ 32767 < (o + 128) / 256)) ∧ (outputValue .l16 o).1 ≠ -32768) ∧
  (∀ x : Int, -32767 ≤ x → x ≤ 32767 → outputValue .l16 (256 * x) = (x, false)) ∧
  (∀ (cfg : StreamConfig) (o : Int), formatSample cfg (.value o) =
    (containerBytes cfg.outputFormat cfg.outputOrder (outputValue cfg.outputFormat o).1, (outputValue cfg.outputFormat o).2)) ∧
  (∀ (cfg : StreamConfig) (o : VoidOrigin), formatSample cfg (.void o) =
    (containerBytes cfg.outputFormat cfg.outputOrder
      (match cfg.outputFormat with | .l16 => -32768 | .l24 => -8388608), false))) ∧
  (∀ order : ByteOrder,
    (∀ x : Int, -32768 ≤ x → x ≤ 32767 → ∃ b0 b1 : Byte, containerBytes .l16 order x = [b0, b1] ∧
      decodeL16 order b0 b1 = if x = -32768 then .void .scanner else .value (256 * x)) ∧
    (∀ x : Int, -8388608 ≤ x → x ≤ 8388607 → ∃ b0 b1 b2 b3 : Byte, containerBytes .l24 order x = [b0, b1, b2, b3] ∧
      decodeL24 order b0 b1 b2 b3 = (if x = -8388608 then .void .scanner else .value x) ∧
      (match order with | .little => b3 | .big => b0) = (if x < 0 then 0xFF#8 else 0x00#8)))

/-- The signatures (R108 to R111). The check value of the nine bytes 0x31 to 0x39; bytes enter one after another, and two
sequences that differ in one byte alone have different signatures. Each voted sample enters its span's voted signature as three
bytes, its value in two's complement, least significant byte first, a void as −8,388,608 whatever its origin. Each released
sample's container enters its span's output signature as it is handed on, byte 0 first. -/
def Obligations.SignaturesCovered : Prop :=
  crcFinish (crcBytes 0xFFFFFFFF#32 [0x31#8, 0x32#8, 0x33#8, 0x34#8, 0x35#8, 0x36#8, 0x37#8, 0x38#8, 0x39#8]) =
    0xCBF43926#32 ∧
  (∀ (r : Word32) (xs ys : List Byte) (b c : Byte), crcBytes r (xs ++ ys) = crcBytes (crcBytes r xs) ys ∧
    (b ≠ c → crcFinish (crcBytes r (xs ++ b :: ys)) ≠ crcFinish (crcBytes r (xs ++ c :: ys)))) ∧
  (∀ o : VoidOrigin, votedBytes (.void o) = [0x00#8, 0x00#8, 0x80#8]) ∧
  (∀ x : Int, InRange x → ∃ b0 b1 b2 : Byte, votedBytes (.value x) = [b0, b1, b2] ∧ (b2 ++ b1 ++ b0).toInt = x) ∧
  (∀ (sp : SpanInfo) (row : LaneRow) (r : Run) (y : Tally),
    r.ctx.tallies.find? (fun t => decide (t.start = sp.start)) = some y →
    ∃ z : Tally, (frontStages sp row r).2.ctx.tallies.find? (fun t => decide (t.start = sp.start)) = some z ∧
      z.votedCrc = crcBytes y.votedCrc (votedBytes
        (combine r.ctx.profile.disputeTol r.ctx.profile.retireLimit row r.ctx.lanes).1.v) ∧ z.outputCrc = y.outputCrc) ∧
  (∀ (h : Held) (w : Sample) (r : Run) (y : Tally),
    r.ctx.tallies.find? (fun t => decide (t.start = h.span)) = some y →
    ∃ (bytes : List Byte) (rest : List Emit) (z : Tally),
      bytes = (formatSample r.ctx.config (hissSample h.span h.refEnd w r.ctx.hiss).1).1 ∧
      (releaseSample h w r).emits = r.emits ++ .container h.span (h.pos - h.span) bytes :: rest ∧
      (z ∈ (releaseSample h w r).ctx.tallies ∨ .complete h.span z ∈ rest) ∧ z.start = h.span ∧
      z.outputCrc = crcBytes y.outputCrc bytes ∧ z.votedCrc = y.votedCrc ∧ z.samplesOutput = y.samplesOutput + 1)

/-- The records the part reads (R193, 10.8): a field holds its bytes least significant first, and the fields of a span header,
its flag bits and the fields of a profile are those at their places.
Profile limits (R40, R61, R90, R133): the held values lie in their ranges: a value below its range is held at the lower bound and
one above it at the upper, perf_shift and line_period of 0 are held as 0, and Thmax is raised to Thmin. A profile within its ranges
is held as written and is not marked as clamped, any other is, and dispute_tol, retire_limit and click_floor are held as written. -/
def Obligations.RecordsReadAndProfilesLimited : Prop :=
  (∀ (bytes : List Byte) (off n : Nat), fieldAt bytes off 0 = 0 ∧
    fieldAt bytes off (n + 1) = (match bytes[off]? with | none => 0 | some b => b.toNat) + 256 * fieldAt bytes (off + 1) n) ∧
  (∀ bytes : List Byte, let h := parseHeader bytes
    h.state = fieldAt bytes 0x00 4 ∧ h.notify = (fieldAt bytes 0x04 4).testBit 0 ∧
    h.last = (fieldAt bytes 0x04 4).testBit 1 ∧ h.freshLanes = (fieldAt bytes 0x04 4).testBit 2 ∧
    h.resetHum = (fieldAt bytes 0x04 4).testBit 3 ∧ h.protectAll = (fieldAt bytes 0x04 4).testBit 4 ∧
    h.sequence.toNat = fieldAt bytes 0x08 4 ∧ h.count = fieldAt bytes 0x0C 4 ∧
    h.lane0 = fieldAt bytes 0x10 8 ∧ h.lane1 = fieldAt bytes 0x18 8 ∧ h.lane2 = fieldAt bytes 0x20 8 ∧
    h.marksAddr = fieldAt bytes 0x28 8 ∧ h.markCount = fieldAt bytes 0x30 4 ∧ h.logCapacity = fieldAt bytes 0x34 4 ∧
    h.logAddr = fieldAt bytes 0x38 8 ∧ h.outputAddr = fieldAt bytes 0x40 8 ∧ h.profileAddr = fieldAt bytes 0x48 8 ∧
    h.link = fieldAt bytes 0x50 8) ∧
  (∀ bytes : List Byte, let p := parseProfile bytes
    p.disputeTol = fieldAt bytes 0x00 2 ∧ p.retireLimit = fieldAt bytes 0x02 2 ∧ p.perfShift = fieldAt bytes 0x04 2 ∧
    p.linePeriod = fieldAt bytes 0x06 2 ∧ p.lineShift = fieldAt bytes 0x08 2 ∧ p.spliceHumReset = fieldAt bytes 0x0A 2 ∧
    p.clickFactor = fieldAt bytes 0x0C 2 ∧ p.clickFloor = fieldAt bytes 0x0E 2 ∧ p.noiseMin = fieldAt bytes 0x10 2 ∧
    p.guard = fieldAt bytes 0x12 2 ∧ p.repairMax = fieldAt bytes 0x14 2 ∧ p.spliceWidth = fieldAt bytes 0x16 2 ∧
    p.splitShift = fieldAt bytes 0x18 2 ∧ p.envShift = fieldAt bytes 0x1A 2 ∧ p.refMult = fieldAt bytes 0x1C 2 ∧
    p.gainFloor = fieldAt bytes 0x1E 2 ∧ p.hissInitial = fieldAt bytes 0x20 4 ∧ p.hissMin = fieldAt bytes 0x24 4 ∧
    p.hissMax = fieldAt bytes 0x28 4) ∧
  ∀ p : Profile, ProfileLimited (limitProfile p) ∧ (ProfileLimited p ↔ limitProfile p = p) ∧
    (profileClamped p = true ↔ ¬ ProfileLimited p) ∧ (limitProfile p).disputeTol = p.disputeTol ∧
    (limitProfile p).retireLimit = p.retireLimit ∧ (limitProfile p).clickFloor = p.clickFloor ∧
    (let q := limitProfile p
     q.perfShift = (if p.perfShift = 0 then 0 else max 4 (min 16 p.perfShift)) ∧
     q.linePeriod = (if p.linePeriod = 0 then 0 else max 2 (min 4096 p.linePeriod)) ∧
     q.lineShift = max 4 (min 16 p.lineShift) ∧ q.spliceHumReset = min 2 p.spliceHumReset ∧
     q.clickFactor = max 8 (min 255 p.clickFactor) ∧ q.noiseMin = max 1 (min 65535 p.noiseMin) ∧
     q.guard = min 3 p.guard ∧ q.repairMax = max 4 (min 96 p.repairMax) ∧ q.spliceWidth = min 16 p.spliceWidth ∧
     q.splitShift = max 1 (min 6 p.splitShift) ∧ q.envShift = max 2 (min 10 p.envShift) ∧
     q.refMult = max 4 (min 64 p.refMult) ∧ q.gainFloor = min 256 p.gainFloor ∧
     q.hissInitial = min 8388607 p.hissInitial ∧ q.hissMin = min 8388607 p.hissMin ∧
     q.hissMax = max (min 8388607 p.hissMin) (min 8388607 p.hissMax))

/-- The layout of the records the part writes (R85, R162, R189, R193, 10.8): a report has 128 bytes, a log entry 16, a progress
record 64, each field at its place, least significant byte first, and the rest 0. The codes are the numbers of 10.8: completion 0
to 8, stream state 0 to 8, window kind 1 to 5. A progress record shows as active lanes those of the signal context (during a block the model's choice, log entry 49), none while the
stream is CLOSED or OPENING (R189). The model's choice (log entry 34): a value beyond its field is written modulo the field's
width. The active-lanes mask holds lane 0 alone for one lane, else the lanes not retired (R20). -/
def Obligations.RecordLayouts : Prop :=
  ((completionCode .ok = 0 ∧ completionCode .skipped = 1 ∧ completionCode .descFault = 2 ∧
      completionCode .descInvalid = 3 ∧ completionCode .sequence = 4 ∧ completionCode .marksFault = 5 ∧
      completionCode .profileFault = 6 ∧ completionCode .outputFault = 7 ∧ completionCode .stateFault = 8) ∧
    (stateCode .closed = 0 ∧ stateCode .opening = 1 ∧ stateCode .running = 2 ∧ stateCode .awaitLink = 3 ∧
      stateCode .stopping = 4 ∧ stateCode .aborting = 5 ∧ stateCode .halting = 6 ∧ stateCode .stopped = 7 ∧
      stateCode .halted = 8) ∧
    kindCode .click = 1 ∧ kindCode .void = 2 ∧ kindCode .splice = 3 ∧ kindCode .prot = 4 ∧ kindCode .long = 5) ∧
  (∀ (k : StreamId) (x : Stream) (addr : Nat),
    recordWrite k x addr = { addr := addr, bytes := progressBytes k x (liveMask x), tag := .progress } ∧
    (unopened x.state = true → liveMask x = 0#3) ∧
    (∀ ctx, unopened x.state = false → x.ctx = some ctx → liveMask x = activeMask ctx.config ctx.lanes)) ∧
  (∀ (cfg : StreamConfig) (ls : LaneState), (cfg.laneCount = .one → activeMask cfg ls = 1#3) ∧
    (cfg.laneCount = .three → ∀ l : Lane, (activeMask cfg ls).getLsbD l.val = decide (ls.retired ≠ some l))) ∧
  (∀ (code : Completion) (echo : Seq) (t : Tally) (mask : LaneMask) (th : Nat),
    let r := reportBytes code echo t mask th
    r.length = 128 ∧ fieldAt r 0x00 4 = completionCode code ∧ fieldAt r 0x04 4 = echo.toNat ∧
    fieldAt r 0x08 4 = t.samplesOutput % 2 ^ 32 ∧ fieldAt r 0x0C 4 = t.logWritten % 2 ^ 32 ∧
    fieldAt r 0x10 4 = t.logLost % 2 ^ 32 ∧ fieldAt r 0x14 4 = t.clickWindows % 2 ^ 32 ∧
    fieldAt r 0x18 4 = t.voidWindows % 2 ^ 32 ∧ fieldAt r 0x1C 4 = t.spliceWindows % 2 ^ 32 ∧
    fieldAt r 0x20 4 = t.protectedWindows % 2 ^ 32 ∧ fieldAt r 0x24 4 = t.longWindows % 2 ^ 32 ∧
    fieldAt r 0x28 4 = t.repaired % 2 ^ 32 ∧ fieldAt r 0x2C 4 = t.voidRepaired % 2 ^ 32 ∧
    fieldAt r 0x30 4 = t.voidPassed % 2 ^ 32 ∧ fieldAt r 0x34 4 = t.disputed % 2 ^ 32 ∧
    fieldAt r 0x38 4 = t.unresolved % 2 ^ 32 ∧ fieldAt r 0x3C 4 = t.fetchFailed % 2 ^ 32 ∧
    fieldAt r 0x40 4 = t.fetchVoid % 2 ^ 32 ∧ fieldAt r 0x44 4 = t.marksIgnored % 2 ^ 32 ∧
    fieldAt r 0x48 4 = t.phaseOverruns % 2 ^ 32 ∧ fieldAt r 0x4C 4 = t.humClamps % 2 ^ 32 ∧
    fieldAt r 0x50 4 = t.saturations % 2 ^ 32 ∧ fieldAt r 0x54 4 = t.retirements % 2 ^ 32 ∧
    fieldAt r 0x58 4 = t.reinstatements % 2 ^ 32 ∧
    fieldAt r 0x5C 4 = (t.mask.getD mask).toNat + (if t.clamped = true then 256 else 0) ∧
    fieldAt r 0x60 4 = (t.thEnd.getD th) % 2 ^ 32 ∧ fieldAt r 0x64 4 = (~~~t.votedCrc).toNat ∧
    fieldAt r 0x68 4 = (~~~t.outputCrc).toNat ∧ fieldAt r 0x6C 20 = 0) ∧
  (∀ (start length : Nat) (kind : Kind) (c : Content),
    let r := logEntryBytes start length kind c
    r.length = 16 ∧ fieldAt r 0 2 = start % 2 ^ 16 ∧ fieldAt r 2 2 = length % 2 ^ 16 ∧ fieldAt r 4 1 = kindCode kind ∧
    fieldAt r 5 1 = (if c.scanner = true then 1 else 0) + (if c.fetch = true then 2 else 0) +
      (if c.unresolved = true then 4 else 0) ∧
    fieldAt r 6 2 = c.voids % 2 ^ 16 ∧ fieldAt r 8 4 = min c.peak 16777215 ∧ fieldAt r 12 4 = 0) ∧
  (∀ (k : StreamId) (x : Stream) (mask : LaneMask),
    let r := progressBytes k x mask
    r.length = 64 ∧ fieldAt r 0x00 1 = stateCode x.state ∧ fieldAt r 0x01 1 = mask.toNat ∧
    fieldAt r 0x02 2 = x.tag.toNat ∧
    fieldAt r 0x04 1 = (match x.failing with | none => 0 | some f => completionCode f.code) ∧
    fieldAt r 0x05 1 = (match x.openCode with | none => 0 | some .entryInvalid => 1 | some .profileFault => 2) ∧
    fieldAt r 0x06 1 = k.val ∧ fieldAt r 0x07 1 = 0 ∧
    fieldAt r 0x08 8 = (match x.position with | .none => 0 | .anchor a => a | .span a => a) % 2 ^ 64 ∧
    fieldAt r 0x10 8 = x.counters.lastAddr % 2 ^ 64 ∧
    fieldAt r 0x18 4 = x.counters.lastSeq.toNat ∧ fieldAt r 0x1C 4 = x.counters.released.toNat ∧
    fieldAt r 0x20 8 = x.counters.samples.toNat ∧
    fieldAt r 0x28 8 = (match x.failing with | none => 0 | some f => f.addr) % 2 ^ 64 ∧ fieldAt r 0x30 16 = 0)
end

