-- ==== Sys2Proof/Laws/State.lean ====
section
/-! SUPPORT. One lemma for each field under each update of the state and of a stream's record. -/

namespace Sys2Proof.Machine

/-! ## Streams in the state -/

@[simp] theorem State.stream_setStream_self (s : State) (k : StreamId) (x : Stream) : (s.setStream k x).stream k = x := by
  simp [State.stream, State.setStream]

theorem State.stream_setStream_ne (s : State) (k j : StreamId) (x : Stream) (h : j ≠ k) :
    (s.setStream k x).stream j = s.stream j := by
  have h' : k.val ≠ j.val := fun e => h (Fin.ext e.symm)
  simp [State.stream, State.setStream, Vector.getElem_set_ne, h']

theorem State.stream_setStream (s : State) (k j : StreamId) (x : Stream) :
    (s.setStream k x).stream j = if j = k then x else s.stream j := by
  split
  · rename_i h; subst h; simp
  · rename_i h; exact s.stream_setStream_ne k j x h

/-- Two states whose streams agree one by one have the same streams. -/
theorem streams_ext {s t : State} (h : ∀ k, s.stream k = t.stream k) : s.streams = t.streams := by
  apply Vector.ext
  intro i hi
  exact h ⟨i, hi⟩

/-- A state in which a stream's record is put back as it was is the same state. -/
@[simp] theorem State.setStream_stream (s : State) (k : StreamId) : s.setStream k (s.stream k) = s := by
  cases s; simp [State.setStream, State.stream]

@[simp] theorem State.setStream_enable (s : State) (k : StreamId) (x : Stream) :
    (s.setStream k x).enable = s.enable := rfl

@[simp] theorem State.setStream_faults (s : State) (k : StreamId) (x : Stream) :
    (s.setStream k x).faults = s.faults := rfl

@[simp] theorem State.setStream_lastFault (s : State) (k : StreamId) (x : Stream) :
    (s.setStream k x).lastFault = s.lastFault := rfl

@[simp] theorem State.setStream_polliv (s : State) (k : StreamId) (x : Stream) :
    (s.setStream k x).polliv = s.polliv := rfl

@[simp] theorem State.setStream_tbaseLo (s : State) (k : StreamId) (x : Stream) :
    (s.setStream k x).tbaseLo = s.tbaseLo := rfl

@[simp] theorem State.setStream_tbaseHi (s : State) (k : StreamId) (x : Stream) :
    (s.setStream k x).tbaseHi = s.tbaseHi := rfl

@[simp] theorem State.setStream_cmd (s : State) (k : StreamId) (x : Stream) :
    (s.setStream k x).cmd = s.cmd := rfl

@[simp] theorem State.setStream_evlatch (s : State) (k : StreamId) (x : Stream) :
    (s.setStream k x).evlatch = s.evlatch := rfl

@[simp] theorem State.setStream_evmap (s : State) (k : StreamId) (x : Stream) :
    (s.setStream k x).evmap = s.evmap := rfl

@[simp] theorem State.setStream_intx (s : State) (k : StreamId) (x : Stream) :
    (s.setStream k x).intx = s.intx := rfl

@[simp] theorem State.setStream_msgEnabled (s : State) (k : StreamId) (x : Stream) :
    (s.setStream k x).msgEnabled = s.msgEnabled := rfl

@[simp] theorem State.setStream_msgVectors (s : State) (k : StreamId) (x : Stream) :
    (s.setStream k x).msgVectors = s.msgVectors := rfl

@[simp] theorem State.setStream_messages (s : State) (k : StreamId) (x : Stream) :
    (s.setStream k x).messages = s.messages := rfl

@[simp] theorem State.setStream_engineLast (s : State) (k : StreamId) (x : Stream) :
    (s.setStream k x).engineLast = s.engineLast := rfl

@[simp] theorem State.setStream_engine (s : State) (k : StreamId) (x : Stream) :
    (s.setStream k x).engine = s.engine := rfl

@[simp] theorem State.setStream_fetchLast (s : State) (k : StreamId) (x : Stream) :
    (s.setStream k x).fetchLast = s.fetchLast := rfl

@[simp] theorem State.setStream_fetch (s : State) (k : StreamId) (x : Stream) :
    (s.setStream k x).fetch = s.fetch := rfl

@[simp] theorem State.setStream_writeLast (s : State) (k : StreamId) (x : Stream) :
    (s.setStream k x).writeLast = s.writeLast := rfl

@[simp] theorem State.setStream_issued (s : State) (k : StreamId) (x : Stream) :
    (s.setStream k x).issued = s.issued := rfl

@[simp] theorem State.setStream_pending (s : State) (k : StreamId) (x : Stream) :
    (s.setStream k x).pending = s.pending := rfl

@[simp] theorem onStream_self (k : StreamId) (f : Stream → Stream) (s : State) : (onStream k f s).stream k = f (s.stream k) := by
  simp [onStream]

theorem onStream_ne (k j : StreamId) (f : Stream → Stream) (s : State) (h : j ≠ k) :
    (onStream k f s).stream j = s.stream j := by
  simp [onStream, State.stream_setStream_ne _ _ _ _ h]

@[simp] theorem onStream_enable (k : StreamId) (g : Stream → Stream) (s : State) : (onStream k g s).enable = s.enable := rfl

@[simp] theorem onStream_faults (k : StreamId) (g : Stream → Stream) (s : State) : (onStream k g s).faults = s.faults := rfl

@[simp] theorem onStream_lastFault (k : StreamId) (g : Stream → Stream) (s : State) : (onStream k g s).lastFault = s.lastFault := rfl

@[simp] theorem onStream_polliv (k : StreamId) (g : Stream → Stream) (s : State) : (onStream k g s).polliv = s.polliv := rfl

@[simp] theorem onStream_tbaseLo (k : StreamId) (g : Stream → Stream) (s : State) : (onStream k g s).tbaseLo = s.tbaseLo := rfl

@[simp] theorem onStream_tbaseHi (k : StreamId) (g : Stream → Stream) (s : State) : (onStream k g s).tbaseHi = s.tbaseHi := rfl

@[simp] theorem onStream_cmd (k : StreamId) (g : Stream → Stream) (s : State) : (onStream k g s).cmd = s.cmd := rfl

@[simp] theorem onStream_evlatch (k : StreamId) (g : Stream → Stream) (s : State) : (onStream k g s).evlatch = s.evlatch := rfl

@[simp] theorem onStream_evmap (k : StreamId) (g : Stream → Stream) (s : State) : (onStream k g s).evmap = s.evmap := rfl

@[simp] theorem onStream_intx (k : StreamId) (g : Stream → Stream) (s : State) : (onStream k g s).intx = s.intx := rfl

@[simp] theorem onStream_msgEnabled (k : StreamId) (g : Stream → Stream) (s : State) : (onStream k g s).msgEnabled = s.msgEnabled := rfl

@[simp] theorem onStream_msgVectors (k : StreamId) (g : Stream → Stream) (s : State) : (onStream k g s).msgVectors = s.msgVectors := rfl

@[simp] theorem onStream_messages (k : StreamId) (g : Stream → Stream) (s : State) : (onStream k g s).messages = s.messages := rfl

@[simp] theorem onStream_engineLast (k : StreamId) (g : Stream → Stream) (s : State) : (onStream k g s).engineLast = s.engineLast := rfl

@[simp] theorem onStream_engine (k : StreamId) (g : Stream → Stream) (s : State) : (onStream k g s).engine = s.engine := rfl

@[simp] theorem onStream_fetchLast (k : StreamId) (g : Stream → Stream) (s : State) : (onStream k g s).fetchLast = s.fetchLast := rfl

@[simp] theorem onStream_fetch (k : StreamId) (g : Stream → Stream) (s : State) : (onStream k g s).fetch = s.fetch := rfl

@[simp] theorem onStream_writeLast (k : StreamId) (g : Stream → Stream) (s : State) : (onStream k g s).writeLast = s.writeLast := rfl

@[simp] theorem onStream_issued (k : StreamId) (g : Stream → Stream) (s : State) : (onStream k g s).issued = s.issued := rfl

@[simp] theorem onStream_pending (k : StreamId) (g : Stream → Stream) (s : State) : (onStream k g s).pending = s.pending := rfl

/-! ## Fetch transaction -/

@[simp] theorem endFetch_stream (s : State) (k : StreamId) : (endFetch s).stream k = s.stream k := rfl

@[simp] theorem endFetch_fetch (s : State) : (endFetch s).fetch = none := rfl

@[simp] theorem endFetch_streams (s : State) : (endFetch s).streams = s.streams := rfl

@[simp] theorem endFetch_enable (s : State) : (endFetch s).enable = s.enable := rfl

@[simp] theorem endFetch_faults (s : State) : (endFetch s).faults = s.faults := rfl

@[simp] theorem endFetch_lastFault (s : State) : (endFetch s).lastFault = s.lastFault := rfl

@[simp] theorem endFetch_polliv (s : State) : (endFetch s).polliv = s.polliv := rfl

@[simp] theorem endFetch_tbaseLo (s : State) : (endFetch s).tbaseLo = s.tbaseLo := rfl

@[simp] theorem endFetch_tbaseHi (s : State) : (endFetch s).tbaseHi = s.tbaseHi := rfl

@[simp] theorem endFetch_cmd (s : State) : (endFetch s).cmd = s.cmd := rfl

@[simp] theorem endFetch_evlatch (s : State) : (endFetch s).evlatch = s.evlatch := rfl

@[simp] theorem endFetch_evmap (s : State) : (endFetch s).evmap = s.evmap := rfl

@[simp] theorem endFetch_intx (s : State) : (endFetch s).intx = s.intx := rfl

@[simp] theorem endFetch_msgEnabled (s : State) : (endFetch s).msgEnabled = s.msgEnabled := rfl

@[simp] theorem endFetch_msgVectors (s : State) : (endFetch s).msgVectors = s.msgVectors := rfl

@[simp] theorem endFetch_messages (s : State) : (endFetch s).messages = s.messages := rfl

@[simp] theorem endFetch_engineLast (s : State) : (endFetch s).engineLast = s.engineLast := rfl

@[simp] theorem endFetch_engine (s : State) : (endFetch s).engine = s.engine := rfl

@[simp] theorem endFetch_fetchLast (s : State) : (endFetch s).fetchLast = s.fetchLast := rfl

@[simp] theorem endFetch_writeLast (s : State) : (endFetch s).writeLast = s.writeLast := rfl

@[simp] theorem endFetch_issued (s : State) : (endFetch s).issued = s.issued := rfl

@[simp] theorem endFetch_pending (s : State) : (endFetch s).pending = s.pending := rfl

@[simp] theorem judged_stream (s : State) (r : CmdResult) (k : StreamId) : (s.judged r).stream k = s.stream k := rfl

@[simp] theorem judged_enable (s : State) (r : CmdResult) : (s.judged r).enable = s.enable := rfl

@[simp] theorem judged_faults (s : State) (r : CmdResult) : (s.judged r).faults = s.faults := rfl

@[simp] theorem judged_lastFault (s : State) (r : CmdResult) : (s.judged r).lastFault = s.lastFault := rfl

@[simp] theorem judged_polliv (s : State) (r : CmdResult) : (s.judged r).polliv = s.polliv := rfl

@[simp] theorem judged_tbaseLo (s : State) (r : CmdResult) : (s.judged r).tbaseLo = s.tbaseLo := rfl

@[simp] theorem judged_tbaseHi (s : State) (r : CmdResult) : (s.judged r).tbaseHi = s.tbaseHi := rfl

@[simp] theorem judged_evlatch (s : State) (r : CmdResult) : (s.judged r).evlatch = s.evlatch := rfl

@[simp] theorem judged_evmap (s : State) (r : CmdResult) : (s.judged r).evmap = s.evmap := rfl

@[simp] theorem judged_intx (s : State) (r : CmdResult) : (s.judged r).intx = s.intx := rfl

@[simp] theorem judged_msgEnabled (s : State) (r : CmdResult) : (s.judged r).msgEnabled = s.msgEnabled := rfl

@[simp] theorem judged_msgVectors (s : State) (r : CmdResult) : (s.judged r).msgVectors = s.msgVectors := rfl

@[simp] theorem judged_messages (s : State) (r : CmdResult) : (s.judged r).messages = s.messages := rfl

@[simp] theorem judged_engineLast (s : State) (r : CmdResult) : (s.judged r).engineLast = s.engineLast := rfl

@[simp] theorem judged_engine (s : State) (r : CmdResult) : (s.judged r).engine = s.engine := rfl

@[simp] theorem judged_fetchLast (s : State) (r : CmdResult) : (s.judged r).fetchLast = s.fetchLast := rfl

@[simp] theorem judged_fetch (s : State) (r : CmdResult) : (s.judged r).fetch = s.fetch := rfl

@[simp] theorem judged_writeLast (s : State) (r : CmdResult) : (s.judged r).writeLast = s.writeLast := rfl

@[simp] theorem judged_issued (s : State) (r : CmdResult) : (s.judged r).issued = s.issued := rfl

@[simp] theorem judged_pending (s : State) (r : CmdResult) : (s.judged r).pending = s.pending := rfl

/-- A wait read in progress of the stream is marked stale and nothing else changes. -/
theorem markStale_cases (k : StreamId) (s : State) : markStale k s = s ∨ ∃ target addr whole b,
    s.fetch = some { stream := k, phase := .wait target addr whole b } ∧
    markStale k s = { s with fetch := some { stream := k, phase := .wait target addr whole true } } := by
  unfold markStale
  split
  · split
    · rename_i h hj; subst hj; exact Or.inr ⟨_, _, _, _, h, rfl⟩
    · exact Or.inl rfl
  · exact Or.inl rfl

@[simp] theorem markStale_stream (k j : StreamId) (s : State) : (markStale k s).stream j = s.stream j := by
  rcases markStale_cases k s with h | ⟨_, _, _, _, _, h⟩
  · rw [h]
  · rw [h]; rfl

@[simp] theorem markStale_enable (k : StreamId) (s : State) : (markStale k s).enable = s.enable := by
  rcases markStale_cases k s with h | ⟨_, _, _, _, _, h⟩ <;> rw [h]

@[simp] theorem markStale_faults (k : StreamId) (s : State) : (markStale k s).faults = s.faults := by
  rcases markStale_cases k s with h | ⟨_, _, _, _, _, h⟩ <;> rw [h]

@[simp] theorem markStale_lastFault (k : StreamId) (s : State) : (markStale k s).lastFault = s.lastFault := by
  rcases markStale_cases k s with h | ⟨_, _, _, _, _, h⟩ <;> rw [h]

@[simp] theorem markStale_polliv (k : StreamId) (s : State) : (markStale k s).polliv = s.polliv := by
  rcases markStale_cases k s with h | ⟨_, _, _, _, _, h⟩ <;> rw [h]

@[simp] theorem markStale_tbaseLo (k : StreamId) (s : State) : (markStale k s).tbaseLo = s.tbaseLo := by
  rcases markStale_cases k s with h | ⟨_, _, _, _, _, h⟩ <;> rw [h]

@[simp] theorem markStale_tbaseHi (k : StreamId) (s : State) : (markStale k s).tbaseHi = s.tbaseHi := by
  rcases markStale_cases k s with h | ⟨_, _, _, _, _, h⟩ <;> rw [h]

@[simp] theorem markStale_cmd (k : StreamId) (s : State) : (markStale k s).cmd = s.cmd := by
  rcases markStale_cases k s with h | ⟨_, _, _, _, _, h⟩ <;> rw [h]

@[simp] theorem markStale_evlatch (k : StreamId) (s : State) : (markStale k s).evlatch = s.evlatch := by
  rcases markStale_cases k s with h | ⟨_, _, _, _, _, h⟩ <;> rw [h]

@[simp] theorem markStale_evmap (k : StreamId) (s : State) : (markStale k s).evmap = s.evmap := by
  rcases markStale_cases k s with h | ⟨_, _, _, _, _, h⟩ <;> rw [h]

@[simp] theorem markStale_intx (k : StreamId) (s : State) : (markStale k s).intx = s.intx := by
  rcases markStale_cases k s with h | ⟨_, _, _, _, _, h⟩ <;> rw [h]

@[simp] theorem markStale_msgEnabled (k : StreamId) (s : State) : (markStale k s).msgEnabled = s.msgEnabled := by
  rcases markStale_cases k s with h | ⟨_, _, _, _, _, h⟩ <;> rw [h]

@[simp] theorem markStale_msgVectors (k : StreamId) (s : State) : (markStale k s).msgVectors = s.msgVectors := by
  rcases markStale_cases k s with h | ⟨_, _, _, _, _, h⟩ <;> rw [h]

@[simp] theorem markStale_messages (k : StreamId) (s : State) : (markStale k s).messages = s.messages := by
  rcases markStale_cases k s with h | ⟨_, _, _, _, _, h⟩ <;> rw [h]

@[simp] theorem markStale_engineLast (k : StreamId) (s : State) : (markStale k s).engineLast = s.engineLast := by
  rcases markStale_cases k s with h | ⟨_, _, _, _, _, h⟩ <;> rw [h]

@[simp] theorem markStale_engine (k : StreamId) (s : State) : (markStale k s).engine = s.engine := by
  rcases markStale_cases k s with h | ⟨_, _, _, _, _, h⟩ <;> rw [h]

@[simp] theorem markStale_fetchLast (k : StreamId) (s : State) : (markStale k s).fetchLast = s.fetchLast := by
  rcases markStale_cases k s with h | ⟨_, _, _, _, _, h⟩ <;> rw [h]

@[simp] theorem markStale_writeLast (k : StreamId) (s : State) : (markStale k s).writeLast = s.writeLast := by
  rcases markStale_cases k s with h | ⟨_, _, _, _, _, h⟩ <;> rw [h]

@[simp] theorem markStale_issued (k : StreamId) (s : State) : (markStale k s).issued = s.issued := by
  rcases markStale_cases k s with h | ⟨_, _, _, _, _, h⟩ <;> rw [h]

@[simp] theorem markStale_pending (k : StreamId) (s : State) : (markStale k s).pending = s.pending := by
  rcases markStale_cases k s with h | ⟨_, _, _, _, _, h⟩ <;> rw [h]

/-! ## A stream's record -/

@[simp] theorem pushWrite_state (w : Write) (x : Stream) : (pushWrite w x).state = x.state := rfl

@[simp] theorem pushWrite_tag (w : Write) (x : Stream) : (pushWrite w x).tag = x.tag := rfl

@[simp] theorem pushWrite_position (w : Write) (x : Stream) : (pushWrite w x).position = x.position := rfl

@[simp] theorem pushWrite_taken (w : Write) (x : Stream) : (pushWrite w x).taken = x.taken := rfl

@[simp] theorem pushWrite_slot0 (w : Write) (x : Stream) : (pushWrite w x).slot0 = x.slot0 := rfl

@[simp] theorem pushWrite_slot1 (w : Write) (x : Stream) : (pushWrite w x).slot1 = x.slot1 := rfl

@[simp] theorem pushWrite_failing (w : Write) (x : Stream) : (pushWrite w x).failing = x.failing := rfl

@[simp] theorem pushWrite_halt (w : Write) (x : Stream) : (pushWrite w x).halt = x.halt := rfl

@[simp] theorem pushWrite_skip (w : Write) (x : Stream) : (pushWrite w x).skip = x.skip := rfl

@[simp] theorem pushWrite_openCode (w : Write) (x : Stream) : (pushWrite w x).openCode = x.openCode := rfl

@[simp] theorem pushWrite_progressAddr (w : Write) (x : Stream) : (pushWrite w x).progressAddr = x.progressAddr := rfl

@[simp] theorem pushWrite_counters (w : Write) (x : Stream) : (pushWrite w x).counters = x.counters := rfl

@[simp] theorem pushWrite_ctx (w : Write) (x : Stream) : (pushWrite w x).ctx = x.ctx := rfl

@[simp] theorem pushWrite_schedule (w : Write) (x : Stream) : (pushWrite w x).schedule = x.schedule := rfl

@[simp] theorem pushWrite_chain (w : Write) (x : Stream) : (pushWrite w x).chain = x.chain := rfl

@[simp] theorem pushWrite_timer (w : Write) (x : Stream) : (pushWrite w x).timer = x.timer := rfl

@[simp] theorem pushWrite_readDue (w : Write) (x : Stream) : (pushWrite w x).readDue = x.readDue := rfl

@[simp] theorem pushWrite_pollAgain (w : Write) (x : Stream) : (pushWrite w x).pollAgain = x.pollAgain := rfl

@[simp] theorem pushWrite_openDue (w : Write) (x : Stream) : (pushWrite w x).openDue = x.openDue := rfl

@[simp] theorem pushWrite_staging (w : Write) (x : Stream) : (pushWrite w x).staging = x.staging := rfl

@[simp] theorem pushWrite_flushMade (w : Write) (x : Stream) : (pushWrite w x).flushMade = x.flushMade := rfl

@[simp] theorem pushWrite_gaveBack (w : Write) (x : Stream) : (pushWrite w x).gaveBack = x.gaveBack := rfl

@[simp] theorem pushWrite_owed (w : Write) (x : Stream) : (pushWrite w x).owed = x.owed := rfl

@[simp] theorem pushWrite_takes (w : Write) (x : Stream) : (pushWrite w x).takes = x.takes := rfl

@[simp] theorem pushWrite_queue (w : Write) (x : Stream) : (pushWrite w x).queue = x.queue ++ [w] := rfl

/-- A progress record changes the write queue and the records owed alone. -/
theorem handRecord_eq (k : StreamId) (x : Stream) :
    handRecord k x = { x with queue := (handRecord k x).queue, owed := (handRecord k x).owed } := by
  unfold handRecord
  split
  · rfl
  · split <;> rfl

/-- With no record owed, a progress record enters the write queue at once. -/
theorem handRecord_of_none_owed (k : StreamId) (x : Stream) (h : x.owed = []) :
    handRecord k x = { x with queue := (handRecord k x).queue } := by
  unfold handRecord
  split
  · rfl
  · rw [if_pos h]; rfl

@[simp] theorem handRecord_state (k : StreamId) (x : Stream) : (handRecord k x).state = x.state := by
  rw [handRecord_eq]

@[simp] theorem handRecord_tag (k : StreamId) (x : Stream) : (handRecord k x).tag = x.tag := by
  rw [handRecord_eq]

@[simp] theorem handRecord_position (k : StreamId) (x : Stream) : (handRecord k x).position = x.position := by
  rw [handRecord_eq]

@[simp] theorem handRecord_taken (k : StreamId) (x : Stream) : (handRecord k x).taken = x.taken := by
  rw [handRecord_eq]

@[simp] theorem handRecord_slot0 (k : StreamId) (x : Stream) : (handRecord k x).slot0 = x.slot0 := by
  rw [handRecord_eq]

@[simp] theorem handRecord_slot1 (k : StreamId) (x : Stream) : (handRecord k x).slot1 = x.slot1 := by
  rw [handRecord_eq]

@[simp] theorem handRecord_failing (k : StreamId) (x : Stream) : (handRecord k x).failing = x.failing := by
  rw [handRecord_eq]

@[simp] theorem handRecord_halt (k : StreamId) (x : Stream) : (handRecord k x).halt = x.halt := by
  rw [handRecord_eq]

@[simp] theorem handRecord_skip (k : StreamId) (x : Stream) : (handRecord k x).skip = x.skip := by
  rw [handRecord_eq]

@[simp] theorem handRecord_openCode (k : StreamId) (x : Stream) : (handRecord k x).openCode = x.openCode := by
  rw [handRecord_eq]

@[simp] theorem handRecord_progressAddr (k : StreamId) (x : Stream) : (handRecord k x).progressAddr = x.progressAddr := by
  rw [handRecord_eq]

@[simp] theorem handRecord_counters (k : StreamId) (x : Stream) : (handRecord k x).counters = x.counters := by
  rw [handRecord_eq]

@[simp] theorem handRecord_ctx (k : StreamId) (x : Stream) : (handRecord k x).ctx = x.ctx := by
  rw [handRecord_eq]

@[simp] theorem handRecord_schedule (k : StreamId) (x : Stream) : (handRecord k x).schedule = x.schedule := by
  rw [handRecord_eq]

@[simp] theorem handRecord_chain (k : StreamId) (x : Stream) : (handRecord k x).chain = x.chain := by
  rw [handRecord_eq]

@[simp] theorem handRecord_timer (k : StreamId) (x : Stream) : (handRecord k x).timer = x.timer := by
  rw [handRecord_eq]

@[simp] theorem handRecord_readDue (k : StreamId) (x : Stream) : (handRecord k x).readDue = x.readDue := by
  rw [handRecord_eq]

@[simp] theorem handRecord_pollAgain (k : StreamId) (x : Stream) : (handRecord k x).pollAgain = x.pollAgain := by
  rw [handRecord_eq]

@[simp] theorem handRecord_openDue (k : StreamId) (x : Stream) : (handRecord k x).openDue = x.openDue := by
  rw [handRecord_eq]

@[simp] theorem handRecord_staging (k : StreamId) (x : Stream) : (handRecord k x).staging = x.staging := by
  rw [handRecord_eq]

@[simp] theorem handRecord_flushMade (k : StreamId) (x : Stream) : (handRecord k x).flushMade = x.flushMade := by
  rw [handRecord_eq]

@[simp] theorem handRecord_gaveBack (k : StreamId) (x : Stream) : (handRecord k x).gaveBack = x.gaveBack := by
  rw [handRecord_eq]

@[simp] theorem handRecord_takes (k : StreamId) (x : Stream) : (handRecord k x).takes = x.takes := by
  rw [handRecord_eq]

@[simp] theorem endWait_state (x : Stream) : (endWait x).state = x.state := rfl

@[simp] theorem endWait_tag (x : Stream) : (endWait x).tag = x.tag := rfl

@[simp] theorem endWait_position (x : Stream) : (endWait x).position = x.position := rfl

@[simp] theorem endWait_taken (x : Stream) : (endWait x).taken = x.taken := rfl

@[simp] theorem endWait_slot0 (x : Stream) : (endWait x).slot0 = x.slot0 := rfl

@[simp] theorem endWait_slot1 (x : Stream) : (endWait x).slot1 = x.slot1 := rfl

@[simp] theorem endWait_failing (x : Stream) : (endWait x).failing = x.failing := rfl

@[simp] theorem endWait_halt (x : Stream) : (endWait x).halt = x.halt := rfl

@[simp] theorem endWait_skip (x : Stream) : (endWait x).skip = x.skip := rfl

@[simp] theorem endWait_openCode (x : Stream) : (endWait x).openCode = x.openCode := rfl

@[simp] theorem endWait_progressAddr (x : Stream) : (endWait x).progressAddr = x.progressAddr := rfl

@[simp] theorem endWait_counters (x : Stream) : (endWait x).counters = x.counters := rfl

@[simp] theorem endWait_ctx (x : Stream) : (endWait x).ctx = x.ctx := rfl

@[simp] theorem endWait_schedule (x : Stream) : (endWait x).schedule = x.schedule := rfl

@[simp] theorem endWait_chain (x : Stream) : (endWait x).chain = { x.chain with wait := .none } := rfl

@[simp] theorem endWait_timer (x : Stream) : (endWait x).timer = none := rfl

@[simp] theorem endWait_readDue (x : Stream) : (endWait x).readDue = false := rfl

@[simp] theorem endWait_pollAgain (x : Stream) : (endWait x).pollAgain = false := rfl

@[simp] theorem endWait_openDue (x : Stream) : (endWait x).openDue = x.openDue := rfl

@[simp] theorem endWait_staging (x : Stream) : (endWait x).staging = x.staging := rfl

@[simp] theorem endWait_queue (x : Stream) : (endWait x).queue = x.queue := rfl

@[simp] theorem endWait_flushMade (x : Stream) : (endWait x).flushMade = x.flushMade := rfl

@[simp] theorem endWait_gaveBack (x : Stream) : (endWait x).gaveBack = x.gaveBack := rfl

@[simp] theorem endWait_owed (x : Stream) : (endWait x).owed = x.owed := rfl

@[simp] theorem endWait_takes (x : Stream) : (endWait x).takes = x.takes := rfl

@[simp] theorem enterState_state (k : StreamId) (st : StreamState) (x : Stream) : (enterState k st x).state = st := by
  simp [enterState]

@[simp] theorem enterState_tag (k : StreamId) (st : StreamState) (x : Stream) : (enterState k st x).tag = x.tag := by
  simp [enterState]

@[simp] theorem enterState_position (k : StreamId) (st : StreamState) (x : Stream) : (enterState k st x).position = x.position := by
  simp [enterState]

@[simp] theorem enterState_taken (k : StreamId) (st : StreamState) (x : Stream) : (enterState k st x).taken = x.taken := by
  simp [enterState]

@[simp] theorem enterState_slot0 (k : StreamId) (st : StreamState) (x : Stream) : (enterState k st x).slot0 = x.slot0 := by
  simp [enterState]

@[simp] theorem enterState_slot1 (k : StreamId) (st : StreamState) (x : Stream) : (enterState k st x).slot1 = x.slot1 := by
  simp [enterState]

@[simp] theorem enterState_failing (k : StreamId) (st : StreamState) (x : Stream) : (enterState k st x).failing = x.failing := by
  simp [enterState]

@[simp] theorem enterState_halt (k : StreamId) (st : StreamState) (x : Stream) : (enterState k st x).halt = x.halt := by
  simp [enterState]

@[simp] theorem enterState_skip (k : StreamId) (st : StreamState) (x : Stream) : (enterState k st x).skip = x.skip := by
  simp [enterState]

@[simp] theorem enterState_openCode (k : StreamId) (st : StreamState) (x : Stream) : (enterState k st x).openCode = x.openCode := by
  simp [enterState]

@[simp] theorem enterState_progressAddr (k : StreamId) (st : StreamState) (x : Stream) : (enterState k st x).progressAddr = x.progressAddr := by
  simp [enterState]

@[simp] theorem enterState_counters (k : StreamId) (st : StreamState) (x : Stream) : (enterState k st x).counters = x.counters := by
  simp [enterState]

@[simp] theorem enterState_ctx (k : StreamId) (st : StreamState) (x : Stream) : (enterState k st x).ctx = x.ctx := by
  simp [enterState]

@[simp] theorem enterState_schedule (k : StreamId) (st : StreamState) (x : Stream) : (enterState k st x).schedule = x.schedule := by
  simp [enterState]

@[simp] theorem enterState_chain (k : StreamId) (st : StreamState) (x : Stream) : (enterState k st x).chain = x.chain := by
  simp [enterState]

@[simp] theorem enterState_timer (k : StreamId) (st : StreamState) (x : Stream) : (enterState k st x).timer = x.timer := by
  simp [enterState]

@[simp] theorem enterState_readDue (k : StreamId) (st : StreamState) (x : Stream) : (enterState k st x).readDue = x.readDue := by
  simp [enterState]

@[simp] theorem enterState_pollAgain (k : StreamId) (st : StreamState) (x : Stream) : (enterState k st x).pollAgain = x.pollAgain := by
  simp [enterState]

@[simp] theorem enterState_openDue (k : StreamId) (st : StreamState) (x : Stream) : (enterState k st x).openDue = x.openDue := by
  simp [enterState]

@[simp] theorem enterState_staging (k : StreamId) (st : StreamState) (x : Stream) : (enterState k st x).staging = x.staging := by
  simp [enterState]

@[simp] theorem enterState_flushMade (k : StreamId) (st : StreamState) (x : Stream) : (enterState k st x).flushMade = x.flushMade := by
  simp [enterState]

@[simp] theorem enterState_gaveBack (k : StreamId) (st : StreamState) (x : Stream) : (enterState k st x).gaveBack = x.gaveBack := by
  simp [enterState]

@[simp] theorem enterState_takes (k : StreamId) (st : StreamState) (x : Stream) : (enterState k st x).takes = x.takes := by
  simp [enterState]

@[simp] theorem enterRest_state (k : StreamId) (st : StreamState) (x : Stream) : (enterRest k st x).state = st := by
  simp [enterRest]

@[simp] theorem enterRest_tag (k : StreamId) (st : StreamState) (x : Stream) : (enterRest k st x).tag = x.tag + 1 := by
  simp [enterRest]

@[simp] theorem enterRest_position (k : StreamId) (st : StreamState) (x : Stream) : (enterRest k st x).position = x.position := by
  simp [enterRest]

@[simp] theorem enterRest_taken (k : StreamId) (st : StreamState) (x : Stream) : (enterRest k st x).taken = x.taken := by
  simp [enterRest]

@[simp] theorem enterRest_slot0 (k : StreamId) (st : StreamState) (x : Stream) : (enterRest k st x).slot0 = x.slot0 := by
  simp [enterRest]

@[simp] theorem enterRest_slot1 (k : StreamId) (st : StreamState) (x : Stream) : (enterRest k st x).slot1 = x.slot1 := by
  simp [enterRest]

@[simp] theorem enterRest_failing (k : StreamId) (st : StreamState) (x : Stream) : (enterRest k st x).failing = x.failing := by
  simp [enterRest]

@[simp] theorem enterRest_halt (k : StreamId) (st : StreamState) (x : Stream) : (enterRest k st x).halt = x.halt := by
  simp [enterRest]

@[simp] theorem enterRest_skip (k : StreamId) (st : StreamState) (x : Stream) : (enterRest k st x).skip = x.skip := by
  simp [enterRest]

@[simp] theorem enterRest_openCode (k : StreamId) (st : StreamState) (x : Stream) : (enterRest k st x).openCode = x.openCode := by
  simp [enterRest]

@[simp] theorem enterRest_progressAddr (k : StreamId) (st : StreamState) (x : Stream) : (enterRest k st x).progressAddr = x.progressAddr := by
  simp [enterRest]

@[simp] theorem enterRest_counters (k : StreamId) (st : StreamState) (x : Stream) : (enterRest k st x).counters = x.counters := by
  simp [enterRest]

@[simp] theorem enterRest_ctx (k : StreamId) (st : StreamState) (x : Stream) : (enterRest k st x).ctx = x.ctx := by
  simp [enterRest]

@[simp] theorem enterRest_schedule (k : StreamId) (st : StreamState) (x : Stream) : (enterRest k st x).schedule = x.schedule := by
  simp [enterRest]

@[simp] theorem enterRest_chain (k : StreamId) (st : StreamState) (x : Stream) : (enterRest k st x).chain = x.chain := by
  simp [enterRest]

@[simp] theorem enterRest_timer (k : StreamId) (st : StreamState) (x : Stream) : (enterRest k st x).timer = x.timer := by
  simp [enterRest]

@[simp] theorem enterRest_readDue (k : StreamId) (st : StreamState) (x : Stream) : (enterRest k st x).readDue = x.readDue := by
  simp [enterRest]

@[simp] theorem enterRest_pollAgain (k : StreamId) (st : StreamState) (x : Stream) : (enterRest k st x).pollAgain = x.pollAgain := by
  simp [enterRest]

@[simp] theorem enterRest_openDue (k : StreamId) (st : StreamState) (x : Stream) : (enterRest k st x).openDue = x.openDue := by
  simp [enterRest]

@[simp] theorem enterRest_staging (k : StreamId) (st : StreamState) (x : Stream) : (enterRest k st x).staging = x.staging := by
  simp [enterRest]

@[simp] theorem enterRest_flushMade (k : StreamId) (st : StreamState) (x : Stream) : (enterRest k st x).flushMade = x.flushMade := by
  simp [enterRest]

@[simp] theorem enterRest_gaveBack (k : StreamId) (st : StreamState) (x : Stream) : (enterRest k st x).gaveBack = x.gaveBack := by
  simp [enterRest]

@[simp] theorem enterRest_takes (k : StreamId) (st : StreamState) (x : Stream) : (enterRest k st x).takes = x.takes := by
  simp [enterRest]

@[simp] theorem onTaken_state (tid : Nat) (g : Taken → Taken) (x : Stream) : (onTaken tid g x).state = x.state := rfl

@[simp] theorem onTaken_tag (tid : Nat) (g : Taken → Taken) (x : Stream) : (onTaken tid g x).tag = x.tag := rfl

@[simp] theorem onTaken_position (tid : Nat) (g : Taken → Taken) (x : Stream) : (onTaken tid g x).position = x.position := rfl

@[simp] theorem onTaken_slot0 (tid : Nat) (g : Taken → Taken) (x : Stream) : (onTaken tid g x).slot0 = x.slot0 := rfl

@[simp] theorem onTaken_slot1 (tid : Nat) (g : Taken → Taken) (x : Stream) : (onTaken tid g x).slot1 = x.slot1 := rfl

@[simp] theorem onTaken_failing (tid : Nat) (g : Taken → Taken) (x : Stream) : (onTaken tid g x).failing = x.failing := rfl

@[simp] theorem onTaken_halt (tid : Nat) (g : Taken → Taken) (x : Stream) : (onTaken tid g x).halt = x.halt := rfl

@[simp] theorem onTaken_skip (tid : Nat) (g : Taken → Taken) (x : Stream) : (onTaken tid g x).skip = x.skip := rfl

@[simp] theorem onTaken_openCode (tid : Nat) (g : Taken → Taken) (x : Stream) : (onTaken tid g x).openCode = x.openCode := rfl

@[simp] theorem onTaken_progressAddr (tid : Nat) (g : Taken → Taken) (x : Stream) : (onTaken tid g x).progressAddr = x.progressAddr := rfl

@[simp] theorem onTaken_counters (tid : Nat) (g : Taken → Taken) (x : Stream) : (onTaken tid g x).counters = x.counters := rfl

@[simp] theorem onTaken_ctx (tid : Nat) (g : Taken → Taken) (x : Stream) : (onTaken tid g x).ctx = x.ctx := rfl

@[simp] theorem onTaken_schedule (tid : Nat) (g : Taken → Taken) (x : Stream) : (onTaken tid g x).schedule = x.schedule := rfl

@[simp] theorem onTaken_chain (tid : Nat) (g : Taken → Taken) (x : Stream) : (onTaken tid g x).chain = x.chain := rfl

@[simp] theorem onTaken_timer (tid : Nat) (g : Taken → Taken) (x : Stream) : (onTaken tid g x).timer = x.timer := rfl

@[simp] theorem onTaken_readDue (tid : Nat) (g : Taken → Taken) (x : Stream) : (onTaken tid g x).readDue = x.readDue := rfl

@[simp] theorem onTaken_pollAgain (tid : Nat) (g : Taken → Taken) (x : Stream) : (onTaken tid g x).pollAgain = x.pollAgain := rfl

@[simp] theorem onTaken_openDue (tid : Nat) (g : Taken → Taken) (x : Stream) : (onTaken tid g x).openDue = x.openDue := rfl

@[simp] theorem onTaken_staging (tid : Nat) (g : Taken → Taken) (x : Stream) : (onTaken tid g x).staging = x.staging := rfl

@[simp] theorem onTaken_queue (tid : Nat) (g : Taken → Taken) (x : Stream) : (onTaken tid g x).queue = x.queue := rfl

@[simp] theorem onTaken_flushMade (tid : Nat) (g : Taken → Taken) (x : Stream) : (onTaken tid g x).flushMade = x.flushMade := rfl

@[simp] theorem onTaken_gaveBack (tid : Nat) (g : Taken → Taken) (x : Stream) : (onTaken tid g x).gaveBack = x.gaveBack := rfl

@[simp] theorem onTaken_owed (tid : Nat) (g : Taken → Taken) (x : Stream) : (onTaken tid g x).owed = x.owed := rfl

@[simp] theorem onTaken_takes (tid : Nat) (g : Taken → Taken) (x : Stream) : (onTaken tid g x).takes = x.takes := rfl

/-! ## Records owed (R190), and writes that enter ahead of a state word (R123) -/

/-- Records owed are handed over into the write queue alone. -/
theorem handOwed_eq (k : StreamId) (x : Stream) :
    handOwed k x = { x with queue := (handOwed k x).queue, owed := [] } := by
  unfold handOwed
  split <;> rfl

@[simp] theorem handOwed_state (k : StreamId) (x : Stream) : (handOwed k x).state = x.state := by
  rw [handOwed_eq]

@[simp] theorem handOwed_tag (k : StreamId) (x : Stream) : (handOwed k x).tag = x.tag := by
  rw [handOwed_eq]

@[simp] theorem handOwed_position (k : StreamId) (x : Stream) : (handOwed k x).position = x.position := by
  rw [handOwed_eq]

@[simp] theorem handOwed_taken (k : StreamId) (x : Stream) : (handOwed k x).taken = x.taken := by
  rw [handOwed_eq]

@[simp] theorem handOwed_slot0 (k : StreamId) (x : Stream) : (handOwed k x).slot0 = x.slot0 := by
  rw [handOwed_eq]

@[simp] theorem handOwed_slot1 (k : StreamId) (x : Stream) : (handOwed k x).slot1 = x.slot1 := by
  rw [handOwed_eq]

@[simp] theorem handOwed_failing (k : StreamId) (x : Stream) : (handOwed k x).failing = x.failing := by
  rw [handOwed_eq]

@[simp] theorem handOwed_halt (k : StreamId) (x : Stream) : (handOwed k x).halt = x.halt := by
  rw [handOwed_eq]

@[simp] theorem handOwed_skip (k : StreamId) (x : Stream) : (handOwed k x).skip = x.skip := by
  rw [handOwed_eq]

@[simp] theorem handOwed_openCode (k : StreamId) (x : Stream) : (handOwed k x).openCode = x.openCode := by
  rw [handOwed_eq]

@[simp] theorem handOwed_progressAddr (k : StreamId) (x : Stream) : (handOwed k x).progressAddr = x.progressAddr := by
  rw [handOwed_eq]

@[simp] theorem handOwed_counters (k : StreamId) (x : Stream) : (handOwed k x).counters = x.counters := by
  rw [handOwed_eq]

@[simp] theorem handOwed_ctx (k : StreamId) (x : Stream) : (handOwed k x).ctx = x.ctx := by
  rw [handOwed_eq]

@[simp] theorem handOwed_schedule (k : StreamId) (x : Stream) : (handOwed k x).schedule = x.schedule := by
  rw [handOwed_eq]

@[simp] theorem handOwed_chain (k : StreamId) (x : Stream) : (handOwed k x).chain = x.chain := by
  rw [handOwed_eq]

@[simp] theorem handOwed_timer (k : StreamId) (x : Stream) : (handOwed k x).timer = x.timer := by
  rw [handOwed_eq]

@[simp] theorem handOwed_readDue (k : StreamId) (x : Stream) : (handOwed k x).readDue = x.readDue := by
  rw [handOwed_eq]

@[simp] theorem handOwed_pollAgain (k : StreamId) (x : Stream) : (handOwed k x).pollAgain = x.pollAgain := by
  rw [handOwed_eq]

@[simp] theorem handOwed_openDue (k : StreamId) (x : Stream) : (handOwed k x).openDue = x.openDue := by
  rw [handOwed_eq]

@[simp] theorem handOwed_staging (k : StreamId) (x : Stream) : (handOwed k x).staging = x.staging := by
  rw [handOwed_eq]

@[simp] theorem handOwed_flushMade (k : StreamId) (x : Stream) : (handOwed k x).flushMade = x.flushMade := by
  rw [handOwed_eq]

@[simp] theorem handOwed_gaveBack (k : StreamId) (x : Stream) : (handOwed k x).gaveBack = x.gaveBack := by
  rw [handOwed_eq]

@[simp] theorem handOwed_takes (k : StreamId) (x : Stream) : (handOwed k x).takes = x.takes := by
  rw [handOwed_eq]

@[simp] theorem handOwed_owed (k : StreamId) (x : Stream) : (handOwed k x).owed = [] := by
  rw [handOwed_eq]

@[simp] theorem oweRecord_state (x : Stream) : (oweRecord x).state = x.state := rfl

@[simp] theorem oweRecord_tag (x : Stream) : (oweRecord x).tag = x.tag := rfl

@[simp] theorem oweRecord_position (x : Stream) : (oweRecord x).position = x.position := rfl

@[simp] theorem oweRecord_taken (x : Stream) : (oweRecord x).taken = x.taken := rfl

@[simp] theorem oweRecord_slot0 (x : Stream) : (oweRecord x).slot0 = x.slot0 := rfl

@[simp] theorem oweRecord_slot1 (x : Stream) : (oweRecord x).slot1 = x.slot1 := rfl

@[simp] theorem oweRecord_failing (x : Stream) : (oweRecord x).failing = x.failing := rfl

@[simp] theorem oweRecord_halt (x : Stream) : (oweRecord x).halt = x.halt := rfl

@[simp] theorem oweRecord_skip (x : Stream) : (oweRecord x).skip = x.skip := rfl

@[simp] theorem oweRecord_openCode (x : Stream) : (oweRecord x).openCode = x.openCode := rfl

@[simp] theorem oweRecord_progressAddr (x : Stream) : (oweRecord x).progressAddr = x.progressAddr := rfl

@[simp] theorem oweRecord_counters (x : Stream) : (oweRecord x).counters = x.counters := rfl

@[simp] theorem oweRecord_ctx (x : Stream) : (oweRecord x).ctx = x.ctx := rfl

@[simp] theorem oweRecord_schedule (x : Stream) : (oweRecord x).schedule = x.schedule := rfl

@[simp] theorem oweRecord_chain (x : Stream) : (oweRecord x).chain = x.chain := rfl

@[simp] theorem oweRecord_timer (x : Stream) : (oweRecord x).timer = x.timer := rfl

@[simp] theorem oweRecord_readDue (x : Stream) : (oweRecord x).readDue = x.readDue := rfl

@[simp] theorem oweRecord_pollAgain (x : Stream) : (oweRecord x).pollAgain = x.pollAgain := rfl

@[simp] theorem oweRecord_openDue (x : Stream) : (oweRecord x).openDue = x.openDue := rfl

@[simp] theorem oweRecord_staging (x : Stream) : (oweRecord x).staging = x.staging := rfl

@[simp] theorem oweRecord_flushMade (x : Stream) : (oweRecord x).flushMade = x.flushMade := rfl

@[simp] theorem oweRecord_gaveBack (x : Stream) : (oweRecord x).gaveBack = x.gaveBack := rfl

@[simp] theorem oweRecord_takes (x : Stream) : (oweRecord x).takes = x.takes := rfl

@[simp] theorem oweRecord_queue (x : Stream) : (oweRecord x).queue = x.queue := rfl

@[simp] theorem pushAhead_state (ws : List Write) (x : Stream) : (pushAhead ws x).state = x.state := rfl

@[simp] theorem pushAhead_tag (ws : List Write) (x : Stream) : (pushAhead ws x).tag = x.tag := rfl

@[simp] theorem pushAhead_position (ws : List Write) (x : Stream) : (pushAhead ws x).position = x.position := rfl

@[simp] theorem pushAhead_taken (ws : List Write) (x : Stream) : (pushAhead ws x).taken = x.taken := rfl

@[simp] theorem pushAhead_slot0 (ws : List Write) (x : Stream) : (pushAhead ws x).slot0 = x.slot0 := rfl

@[simp] theorem pushAhead_slot1 (ws : List Write) (x : Stream) : (pushAhead ws x).slot1 = x.slot1 := rfl

@[simp] theorem pushAhead_failing (ws : List Write) (x : Stream) : (pushAhead ws x).failing = x.failing := rfl

@[simp] theorem pushAhead_halt (ws : List Write) (x : Stream) : (pushAhead ws x).halt = x.halt := rfl

@[simp] theorem pushAhead_skip (ws : List Write) (x : Stream) : (pushAhead ws x).skip = x.skip := rfl

@[simp] theorem pushAhead_openCode (ws : List Write) (x : Stream) : (pushAhead ws x).openCode = x.openCode := rfl

@[simp] theorem pushAhead_progressAddr (ws : List Write) (x : Stream) : (pushAhead ws x).progressAddr = x.progressAddr := rfl

@[simp] theorem pushAhead_counters (ws : List Write) (x : Stream) : (pushAhead ws x).counters = x.counters := rfl

@[simp] theorem pushAhead_ctx (ws : List Write) (x : Stream) : (pushAhead ws x).ctx = x.ctx := rfl

@[simp] theorem pushAhead_schedule (ws : List Write) (x : Stream) : (pushAhead ws x).schedule = x.schedule := rfl

@[simp] theorem pushAhead_chain (ws : List Write) (x : Stream) : (pushAhead ws x).chain = x.chain := rfl

@[simp] theorem pushAhead_timer (ws : List Write) (x : Stream) : (pushAhead ws x).timer = x.timer := rfl

@[simp] theorem pushAhead_readDue (ws : List Write) (x : Stream) : (pushAhead ws x).readDue = x.readDue := rfl

@[simp] theorem pushAhead_pollAgain (ws : List Write) (x : Stream) : (pushAhead ws x).pollAgain = x.pollAgain := rfl

@[simp] theorem pushAhead_openDue (ws : List Write) (x : Stream) : (pushAhead ws x).openDue = x.openDue := rfl

@[simp] theorem pushAhead_staging (ws : List Write) (x : Stream) : (pushAhead ws x).staging = x.staging := rfl

@[simp] theorem pushAhead_flushMade (ws : List Write) (x : Stream) : (pushAhead ws x).flushMade = x.flushMade := rfl

@[simp] theorem pushAhead_gaveBack (ws : List Write) (x : Stream) : (pushAhead ws x).gaveBack = x.gaveBack := rfl

@[simp] theorem pushAhead_takes (ws : List Write) (x : Stream) : (pushAhead ws x).takes = x.takes := rfl

@[simp] theorem pushAhead_owed (ws : List Write) (x : Stream) : (pushAhead ws x).owed = x.owed := rfl

/-! ## Records apart from their write queue -/

@[simp] theorem pushWrite_apart (w : Write) (x : Stream) : (pushWrite w x).apart = x.apart := rfl

theorem handRecord_apart (k : StreamId) (x : Stream) (h : x.owed = []) : (handRecord k x).apart = x.apart := by
  rw [handRecord_of_none_owed k x h]; rfl

theorem enterState_apart (k : StreamId) (st : StreamState) (x : Stream) (h : x.owed = []) :
    (enterState k st x).apart = { x.apart with state := st } := by
  rw [enterState, handRecord_apart k { x with state := st } h]; rfl

theorem enterRest_apart (k : StreamId) (st : StreamState) (x : Stream) (h : x.owed = []) :
    (enterRest k st x).apart = { x.apart with state := st, tag := x.tag + 1 } := by
  rw [enterRest, handRecord_apart k { x with state := st, tag := x.tag + 1 } h]; rfl

@[simp] theorem pushAhead_apart (ws : List Write) (x : Stream) : (pushAhead ws x).apart = x.apart := rfl

/-- Every stream but `k` keeps its record but for writes that leave its queue, in one state after another. -/
theorem OthersKept.trans {k : StreamId} {s t u : State} (h : OthersKept k s t) (g : OthersKept k t u) : OthersKept k s u :=
  fun j hj => ⟨(g j hj).1.trans (h j hj).1, (g j hj).2.trans (h j hj).2⟩

/-- Every stream but `k` is the same. -/
theorem OthersKept.of_eq {k : StreamId} {s t : State} (h : ∀ j, j ≠ k → t.stream j = s.stream j) : OthersKept k s t := by
  intro j hj; rw [h j hj]; exact ⟨rfl, List.suffix_refl _⟩

theorem OthersKept.refl (k : StreamId) (s : State) : OthersKept k s s := OthersKept.of_eq fun _ _ => rfl

theorem othersKept_onStream (k : StreamId) (f : Stream → Stream) (s : State) : OthersKept k s (onStream k f s) :=
  OthersKept.of_eq fun j hj => onStream_ne k j f s hj

end Sys2Proof.Machine
end

