-- ==== Sys2Proof/Laws/Click.lean ====
section
/-! SUPPORT. What each operation of the Click Repairer's data path can do, said once: the completion of spans, the hand-over of a
log entry, and the release of samples. -/

namespace Sys2Proof.Machine

/-! ## Tallies -/

/-- A change of a span's tallies that keeps their first position is found where they were. -/
theorem find_onTally (span : Nat) (f : Tally → Tally) (hf : ∀ t, (f t).start = t.start) (ts : List Tally) (y : Tally)
    (h : ts.find? (fun t => decide (t.start = span)) = some y) :
    (onTally span f ts).find? (fun t => decide (t.start = span)) = some (f y) := by
  unfold onTally
  induction ts with
  | nil => simp at h
  | cons t ts ih =>
      by_cases ht : t.start = span
      · simp [ht] at h
        subst h
        simp [ht, hf]
      · simp [ht] at h
        simp [ht]
        simpa using ih (by simpa using h)

/-! ## Completion (R81, R107) -/

/-- All that the completion of spans can do: it hands completions on and takes tallies from the front. -/
theorem completeSpans_keeps (ts : List Tally) (r : Run) :
    (completeSpans ts r).ctx.click = r.ctx.click ∧ (completeSpans ts r).ctx.hiss = r.ctx.hiss ∧
      (completeSpans ts r).ctx.config = r.ctx.config ∧ (completeSpans ts r).live = r.live ∧
      (∃ es, (completeSpans ts r).emits = r.emits ++ es ∧ ∀ x ∈ es, ∃ span y, x = .complete span y) ∧
      (completeSpans ts r).ctx.tallies <:+ r.ctx.tallies := by
  induction ts generalizing r with
  | nil => exact ⟨rfl, rfl, rfl, rfl, ⟨[], by simp [completeSpans]⟩, List.suffix_refl _⟩
  | cons t ts ih =>
      unfold completeSpans
      split
      · obtain ⟨click, hiss, config, live, ⟨es, emits, hes⟩, tallies⟩ := ih (leaveOldest t r)
        refine ⟨click.trans rfl, hiss.trans rfl, config.trans rfl, live.trans rfl, ⟨.complete t.start t :: es, ?_, ?_⟩,
          tallies.trans (List.tail_suffix _)⟩
        · rw [emits]; simp [leaveOldest, emitRun]
        · intro x hx
          rcases List.mem_cons.1 hx with rfl | hx
          · exact ⟨_, _, rfl⟩
          · exact hes x hx
      · exact ⟨rfl, rfl, rfl, rfl, ⟨[], by simp⟩, List.suffix_refl _⟩

/-! ## Log entries (R85) -/

/-- The hand-over of a log entry changes tallies and what is handed on, and nothing else. -/
theorem handEntry_keeps (span start length : Nat) (kind : Kind) (c : Content) (r : Run) :
    (handEntry span start length kind c r).ctx.click = r.ctx.click ∧
      (handEntry span start length kind c r).ctx.hiss = r.ctx.hiss ∧
      (handEntry span start length kind c r).ctx.config = r.ctx.config ∧
      (handEntry span start length kind c r).live = r.live := by
  unfold handEntry
  dsimp only
  split
  · exact ⟨rfl, rfl, rfl, rfl⟩
  · split <;> exact ⟨rfl, rfl, rfl, rfl⟩

/-! ## Release (R79) -/

/-- The release of a sample makes its output the last released one, and changes nothing else of the Click Repairer. -/
theorem releaseSample_click (h : Held) (w : Sample) (r : Run) :
    (releaseSample h w r).ctx.click = { r.ctx.click with lastOut := some w } := by
  unfold releaseSample expandAndFormat completeRun
  exact (completeSpans_keeps _ _).1

theorem passSample_click (h : Held) (r : Run) : (passSample h r).ctx.click = { r.ctx.click with lastOut := some h.u } := by
  unfold passSample
  rw [releaseSample_click]
  split <;> rfl

theorem repairSample_click (h : Held) (w : Int) (r : Run) :
    (repairSample h w r).ctx.click = { r.ctx.click with lastOut := some (.value w) } := by
  unfold repairSample
  rw [releaseSample_click]
  rfl

/-- The samples of a repaired window are released one after another, each with its number in the window. -/
theorem repairAll_eq_foldl (left right : Option Int) (len i : Nat) (hs : List Held) (r : Run) :
    repairAll left right len i hs r = (hs.zip (List.range' i hs.length)).foldl
      (fun t x => repairSample x.1 (repairValue left right len x.2) t) r := by
  induction hs generalizing i r with
  | nil => rfl
  | cons h hs ih => simp [repairAll, ih, List.range'_succ]

end Sys2Proof.Machine
end

