-- ==== Sys2Proof/Laws/Events.lean ====
section
/-! SUPPORT. What signals, device status bits and messages change: latches, INTx and messages, and DEVSTAT. -/

namespace Sys2Proof.Machine

/-! ## Messages and signals (R191, R192) -/

/-- A message, sent or not, changes the messages alone. -/
theorem messageIfMapped_cases (c : Cause) (s : State) :
    ∃ ms, messageIfMapped c s = { s with messages := s.messages ++ ms } := by
  unfold messageIfMapped sendMessage
  split
  · exact ⟨_, rfl⟩
  · exact ⟨[], by simp⟩

/-- All a cause signal can do: nothing with its latch set, else its latch, INTx and at most one message. -/
theorem signal_cases (c : Cause) (s : State) :
    (latched s.evlatch c = true ∧ signal c s = s) ∨
    (latched s.evlatch c = false ∧ ∃ ms b,
      signal c s = { s with evlatch := s.evlatch ||| causeMask c, intx := b, messages := s.messages ++ ms }) := by
  unfold signal
  split
  · next h => exact Or.inl ⟨h, rfl⟩
  · next h =>
      obtain ⟨ms, hm⟩ := messageIfMapped_cases c { s with evlatch := s.evlatch ||| causeMask c }
      exact Or.inr ⟨by simpa using h, ms, intxLevel s.msgEnabled (s.evlatch ||| causeMask c) s.evmap, by rw [hm]; rfl⟩

/-- All a cause signal can do, latched before or not. -/
theorem signal_form (c : Cause) (s : State) :
    ∃ l b ms, signal c s = { s with evlatch := l, intx := b, messages := s.messages ++ ms } := by
  rcases signal_cases c s with ⟨_, h⟩ | ⟨_, ms, b, h⟩
  · exact ⟨s.evlatch, s.intx, [], by rw [h]; simp⟩
  · exact ⟨_, _, _, h⟩

theorem latched_or_causeMask (l : BitVec 5) (c d : Cause) :
    latched (l ||| causeMask c) d = (latched l d || decide (d = c)) := by
  cases c <;> cases d <;> simp [latched, causeMask, causeIndex]

/-- A cause signal latches its cause and keeps the other latches. -/
theorem latched_signal (c d : Cause) (s : State) :
    latched (signal c s).evlatch d = (latched s.evlatch d || decide (d = c)) := by
  rcases signal_cases c s with ⟨hl, h⟩ | ⟨_, ms, b, h⟩
  · rw [h]
    by_cases hd : d = c
    · subst hd; simp [hl]
    · simp [hd]
  · rw [h]; exact latched_or_causeMask _ _ _

@[simp] theorem signal_enable (c : Cause) (s : State) : (signal c s).enable = s.enable := by
  obtain ⟨_, _, _, h⟩ := signal_form c s; rw [h]

@[simp] theorem signal_faults (c : Cause) (s : State) : (signal c s).faults = s.faults := by
  obtain ⟨_, _, _, h⟩ := signal_form c s; rw [h]

@[simp] theorem signal_lastFault (c : Cause) (s : State) : (signal c s).lastFault = s.lastFault := by
  obtain ⟨_, _, _, h⟩ := signal_form c s; rw [h]

@[simp] theorem signal_polliv (c : Cause) (s : State) : (signal c s).polliv = s.polliv := by
  obtain ⟨_, _, _, h⟩ := signal_form c s; rw [h]

@[simp] theorem signal_tbaseLo (c : Cause) (s : State) : (signal c s).tbaseLo = s.tbaseLo := by
  obtain ⟨_, _, _, h⟩ := signal_form c s; rw [h]

@[simp] theorem signal_tbaseHi (c : Cause) (s : State) : (signal c s).tbaseHi = s.tbaseHi := by
  obtain ⟨_, _, _, h⟩ := signal_form c s; rw [h]

@[simp] theorem signal_cmd (c : Cause) (s : State) : (signal c s).cmd = s.cmd := by
  obtain ⟨_, _, _, h⟩ := signal_form c s; rw [h]

@[simp] theorem signal_evmap (c : Cause) (s : State) : (signal c s).evmap = s.evmap := by
  obtain ⟨_, _, _, h⟩ := signal_form c s; rw [h]

@[simp] theorem signal_msgEnabled (c : Cause) (s : State) : (signal c s).msgEnabled = s.msgEnabled := by
  obtain ⟨_, _, _, h⟩ := signal_form c s; rw [h]

@[simp] theorem signal_msgVectors (c : Cause) (s : State) : (signal c s).msgVectors = s.msgVectors := by
  obtain ⟨_, _, _, h⟩ := signal_form c s; rw [h]

@[simp] theorem signal_engineLast (c : Cause) (s : State) : (signal c s).engineLast = s.engineLast := by
  obtain ⟨_, _, _, h⟩ := signal_form c s; rw [h]

@[simp] theorem signal_engine (c : Cause) (s : State) : (signal c s).engine = s.engine := by
  obtain ⟨_, _, _, h⟩ := signal_form c s; rw [h]

@[simp] theorem signal_fetchLast (c : Cause) (s : State) : (signal c s).fetchLast = s.fetchLast := by
  obtain ⟨_, _, _, h⟩ := signal_form c s; rw [h]

@[simp] theorem signal_fetch (c : Cause) (s : State) : (signal c s).fetch = s.fetch := by
  obtain ⟨_, _, _, h⟩ := signal_form c s; rw [h]

@[simp] theorem signal_writeLast (c : Cause) (s : State) : (signal c s).writeLast = s.writeLast := by
  obtain ⟨_, _, _, h⟩ := signal_form c s; rw [h]

@[simp] theorem signal_issued (c : Cause) (s : State) : (signal c s).issued = s.issued := by
  obtain ⟨_, _, _, h⟩ := signal_form c s; rw [h]

@[simp] theorem signal_streams (c : Cause) (s : State) : (signal c s).streams = s.streams := by
  obtain ⟨_, _, _, h⟩ := signal_form c s; rw [h]

@[simp] theorem signal_pending (c : Cause) (s : State) : (signal c s).pending = s.pending := by
  obtain ⟨_, _, _, h⟩ := signal_form c s; rw [h]

@[simp] theorem signal_stream (c : Cause) (j : StreamId) (s : State) : (signal c s).stream j = s.stream j := by
  obtain ⟨_, _, _, h⟩ := signal_form c s; rw [h]; rfl

/-- All that repeated signals can do. -/
theorem signalTimes_form (n : Nat) (c : Cause) (s : State) :
    ∃ l b ms, signalTimes n c s = { s with evlatch := l, intx := b, messages := s.messages ++ ms } := by
  induction n generalizing s with
  | zero => exact ⟨s.evlatch, s.intx, [], by simp [signalTimes]⟩
  | succ n ih =>
      obtain ⟨l, b, ms, h⟩ := signal_form c s
      obtain ⟨l', b', ms', h'⟩ := ih (signal c s)
      exact ⟨l', b', ms ++ ms', by rw [signalTimes, h', h]; simp⟩

/-- A latch set before repeated signals is set after them. -/
theorem latched_signalTimes_of_latched (n : Nat) (c d : Cause) (s : State) (h : latched s.evlatch d = true) :
    latched (signalTimes n c s).evlatch d = true := by
  induction n generalizing s with
  | zero => exact h
  | succ n ih => exact ih _ (by rw [latched_signal, h]; rfl)

@[simp] theorem signalTimes_enable (n : Nat) (c : Cause) (s : State) : (signalTimes n c s).enable = s.enable := by
  obtain ⟨_, _, _, h⟩ := signalTimes_form n c s; rw [h]

@[simp] theorem signalTimes_faults (n : Nat) (c : Cause) (s : State) : (signalTimes n c s).faults = s.faults := by
  obtain ⟨_, _, _, h⟩ := signalTimes_form n c s; rw [h]

@[simp] theorem signalTimes_lastFault (n : Nat) (c : Cause) (s : State) : (signalTimes n c s).lastFault = s.lastFault := by
  obtain ⟨_, _, _, h⟩ := signalTimes_form n c s; rw [h]

@[simp] theorem signalTimes_polliv (n : Nat) (c : Cause) (s : State) : (signalTimes n c s).polliv = s.polliv := by
  obtain ⟨_, _, _, h⟩ := signalTimes_form n c s; rw [h]

@[simp] theorem signalTimes_tbaseLo (n : Nat) (c : Cause) (s : State) : (signalTimes n c s).tbaseLo = s.tbaseLo := by
  obtain ⟨_, _, _, h⟩ := signalTimes_form n c s; rw [h]

@[simp] theorem signalTimes_tbaseHi (n : Nat) (c : Cause) (s : State) : (signalTimes n c s).tbaseHi = s.tbaseHi := by
  obtain ⟨_, _, _, h⟩ := signalTimes_form n c s; rw [h]

@[simp] theorem signalTimes_cmd (n : Nat) (c : Cause) (s : State) : (signalTimes n c s).cmd = s.cmd := by
  obtain ⟨_, _, _, h⟩ := signalTimes_form n c s; rw [h]

@[simp] theorem signalTimes_evmap (n : Nat) (c : Cause) (s : State) : (signalTimes n c s).evmap = s.evmap := by
  obtain ⟨_, _, _, h⟩ := signalTimes_form n c s; rw [h]

@[simp] theorem signalTimes_msgEnabled (n : Nat) (c : Cause) (s : State) : (signalTimes n c s).msgEnabled = s.msgEnabled := by
  obtain ⟨_, _, _, h⟩ := signalTimes_form n c s; rw [h]

@[simp] theorem signalTimes_msgVectors (n : Nat) (c : Cause) (s : State) : (signalTimes n c s).msgVectors = s.msgVectors := by
  obtain ⟨_, _, _, h⟩ := signalTimes_form n c s; rw [h]

@[simp] theorem signalTimes_engineLast (n : Nat) (c : Cause) (s : State) : (signalTimes n c s).engineLast = s.engineLast := by
  obtain ⟨_, _, _, h⟩ := signalTimes_form n c s; rw [h]

@[simp] theorem signalTimes_engine (n : Nat) (c : Cause) (s : State) : (signalTimes n c s).engine = s.engine := by
  obtain ⟨_, _, _, h⟩ := signalTimes_form n c s; rw [h]

@[simp] theorem signalTimes_fetchLast (n : Nat) (c : Cause) (s : State) : (signalTimes n c s).fetchLast = s.fetchLast := by
  obtain ⟨_, _, _, h⟩ := signalTimes_form n c s; rw [h]

@[simp] theorem signalTimes_fetch (n : Nat) (c : Cause) (s : State) : (signalTimes n c s).fetch = s.fetch := by
  obtain ⟨_, _, _, h⟩ := signalTimes_form n c s; rw [h]

@[simp] theorem signalTimes_writeLast (n : Nat) (c : Cause) (s : State) : (signalTimes n c s).writeLast = s.writeLast := by
  obtain ⟨_, _, _, h⟩ := signalTimes_form n c s; rw [h]

@[simp] theorem signalTimes_issued (n : Nat) (c : Cause) (s : State) : (signalTimes n c s).issued = s.issued := by
  obtain ⟨_, _, _, h⟩ := signalTimes_form n c s; rw [h]

@[simp] theorem signalTimes_streams (n : Nat) (c : Cause) (s : State) : (signalTimes n c s).streams = s.streams := by
  obtain ⟨_, _, _, h⟩ := signalTimes_form n c s; rw [h]

@[simp] theorem signalTimes_pending (n : Nat) (c : Cause) (s : State) : (signalTimes n c s).pending = s.pending := by
  obtain ⟨_, _, _, h⟩ := signalTimes_form n c s; rw [h]

@[simp] theorem signalTimes_stream (n : Nat) (c : Cause) (j : StreamId) (s : State) :
    (signalTimes n c s).stream j = s.stream j := by
  obtain ⟨_, _, _, h⟩ := signalTimes_form n c s; rw [h]; rfl

/-! ## Device status (R186) -/

@[simp] theorem setFault_enable (b k : BitVec 4) (s : State) : (setFault b k s).enable = s.enable := by
  rw [setFault, signal_enable]

@[simp] theorem setFault_polliv (b k : BitVec 4) (s : State) : (setFault b k s).polliv = s.polliv := by
  rw [setFault, signal_polliv]

@[simp] theorem setFault_tbaseLo (b k : BitVec 4) (s : State) : (setFault b k s).tbaseLo = s.tbaseLo := by
  rw [setFault, signal_tbaseLo]

@[simp] theorem setFault_tbaseHi (b k : BitVec 4) (s : State) : (setFault b k s).tbaseHi = s.tbaseHi := by
  rw [setFault, signal_tbaseHi]

@[simp] theorem setFault_cmd (b k : BitVec 4) (s : State) : (setFault b k s).cmd = s.cmd := by
  rw [setFault, signal_cmd]

@[simp] theorem setFault_evmap (b k : BitVec 4) (s : State) : (setFault b k s).evmap = s.evmap := by
  rw [setFault, signal_evmap]

@[simp] theorem setFault_msgEnabled (b k : BitVec 4) (s : State) : (setFault b k s).msgEnabled = s.msgEnabled := by
  rw [setFault, signal_msgEnabled]

@[simp] theorem setFault_msgVectors (b k : BitVec 4) (s : State) : (setFault b k s).msgVectors = s.msgVectors := by
  rw [setFault, signal_msgVectors]

@[simp] theorem setFault_engineLast (b k : BitVec 4) (s : State) : (setFault b k s).engineLast = s.engineLast := by
  rw [setFault, signal_engineLast]

@[simp] theorem setFault_engine (b k : BitVec 4) (s : State) : (setFault b k s).engine = s.engine := by
  rw [setFault, signal_engine]

@[simp] theorem setFault_fetchLast (b k : BitVec 4) (s : State) : (setFault b k s).fetchLast = s.fetchLast := by
  rw [setFault, signal_fetchLast]

@[simp] theorem setFault_fetch (b k : BitVec 4) (s : State) : (setFault b k s).fetch = s.fetch := by
  rw [setFault, signal_fetch]

@[simp] theorem setFault_writeLast (b k : BitVec 4) (s : State) : (setFault b k s).writeLast = s.writeLast := by
  rw [setFault, signal_writeLast]

@[simp] theorem setFault_issued (b k : BitVec 4) (s : State) : (setFault b k s).issued = s.issued := by
  rw [setFault, signal_issued]

@[simp] theorem setFault_streams (b k : BitVec 4) (s : State) : (setFault b k s).streams = s.streams := by
  rw [setFault, signal_streams]

@[simp] theorem setFault_pending (b k : BitVec 4) (s : State) : (setFault b k s).pending = s.pending := by
  rw [setFault, signal_pending]

@[simp] theorem setFault_faults (b k : BitVec 4) (s : State) : (setFault b k s).faults = s.faults ||| b := by
  rw [setFault, signal_faults]

@[simp] theorem setFault_lastFault (b k : BitVec 4) (s : State) : (setFault b k s).lastFault = k := by
  rw [setFault, signal_lastFault]

@[simp] theorem setFault_stream (b k : BitVec 4) (j : StreamId) (s : State) : (setFault b k s).stream j = s.stream j := by
  rw [setFault, signal_stream]; rfl

/-- Setting a DEVSTAT bit latches DEVICE_FAULT. -/
theorem latched_setFault (b k : BitVec 4) (s : State) : latched (setFault b k s).evlatch .deviceFault = true := by
  rw [setFault, latched_signal]; simp

/-- The DEVSTAT bits a setting leaves set. -/
theorem setFault_getLsbD (b k : BitVec 4) (s : State) (i : Nat) :
    (setFault b k s).faults.getLsbD i = (s.faults.getLsbD i || b.getLsbD i) := by
  rw [setFault_faults, BitVec.getLsbD_or]

/-! ## Entries to STOPPED and HALTED (R130, R131) -/

@[simp] theorem enterStopped_self (k : StreamId) (s : State) :
    (enterStopped k s).stream k = enterRest k .stopped (s.stream k) := by
  rw [enterStopped, signal_stream, onStream_self]

@[simp] theorem enterHalted_self (k : StreamId) (s : State) :
    (enterHalted k s).stream k = enterRest k .halted (s.stream k) := by
  rw [enterHalted, signal_stream, onStream_self]

theorem enterStopped_ne (k j : StreamId) (s : State) (h : j ≠ k) : (enterStopped k s).stream j = s.stream j := by
  rw [enterStopped, signal_stream, onStream_ne k j _ s h]

theorem enterHalted_ne (k j : StreamId) (s : State) (h : j ≠ k) : (enterHalted k s).stream j = s.stream j := by
  rw [enterHalted, signal_stream, onStream_ne k j _ s h]

theorem latched_enterStopped (k : StreamId) (s : State) : latched (enterStopped k s).evlatch .stopped = true := by
  rw [enterStopped, latched_signal]; simp

theorem latched_enterHalted (k : StreamId) (s : State) : latched (enterHalted k s).evlatch .attention = true := by
  rw [enterHalted, latched_signal]; simp

end Sys2Proof.Machine
end

