-- ==== Sys2Proof/Laws/Numbers.lean ====
section
/-! SUPPORT. Clamps, little-endian fields and template bins. -/

namespace Sys2Proof.Machine

/-! ## Clamps -/

theorem clampTo_eq (lo hi x : Int) (h : lo ≤ hi) : clampTo lo hi x = max lo (min hi x) := by
  unfold clampTo; split
  · omega
  · split <;> omega

/-- A clamp stays within its bounds. -/
theorem clampTo_bounds (lo hi x : Int) (h : lo ≤ hi) : lo ≤ clampTo lo hi x ∧ clampTo lo hi x ≤ hi := by
  rw [clampTo_eq lo hi x h]; omega

/-- A clamped sample is in the internal range. -/
theorem inRange_clampSample (x : Int) : InRange (clampSample x) :=
  clampTo_bounds (-8388607) 8388607 x (by decide)

/-! ## Little-endian fields (R193) -/

@[simp] theorem length_leBytes (n v : Nat) : (leBytes n v).length = n := by
  induction n generalizing v with
  | zero => rfl
  | succ n ih => simp [leBytes, ih]

/-- Bytes written least significant first read back as the number modulo their range. -/
theorem leNat_leBytes (n v : Nat) : leNat (leBytes n v) = v % 256 ^ n := by
  induction n generalizing v with
  | zero => simp [leBytes, leNat, Nat.mod_one]
  | succ n ih =>
      simp only [leBytes, leNat, ih, BitVec.toNat_ofNat]
      rw [show (256 : Nat) ^ (n + 1) = 256 * 256 ^ n from by rw [pow_succ, mul_comm], Nat.mod_mul]

theorem leNat_lt (bs : List Byte) : leNat bs < 256 ^ bs.length := by
  induction bs with
  | nil => simp [leNat]
  | cons b bs ih =>
      have hb : b.toNat < 256 := b.isLt
      simp only [leNat, List.length_cons, pow_succ]
      omega

/-- The field at the front of a record is what was written there. -/
theorem fieldAt_leBytes_append (n v : Nat) (rest : List Byte) : fieldAt (leBytes n v ++ rest) 0 n = v % 256 ^ n := by
  have h : (leBytes n v ++ rest).take n = leBytes n v := by simp
  rw [fieldAt, List.drop_zero, h, leNat_leBytes]

/-- A field past the front of a record is a field of the rest. -/
theorem fieldAt_append (front rest : List Byte) (off len : Nat) (h : front.length ≤ off) :
    fieldAt (front ++ rest) off len = fieldAt rest (off - front.length) len := by
  rw [fieldAt, fieldAt, List.drop_append, List.drop_eq_nil_of_le h, List.nil_append]

/-! ## Profile limits -/

theorem limitNat_bounds (lo hi x : Nat) (h : lo ≤ hi) : lo ≤ limitNat lo hi x ∧ limitNat lo hi x ≤ hi := by
  unfold limitNat; split
  · omega
  · split <;> omega

theorem limitNat_of_bounds (lo hi x : Nat) (h1 : lo ≤ x) (h2 : x ≤ hi) : limitNat lo hi x = x := by
  unfold limitNat; split
  · omega
  · split <;> omega

theorem limitOrZero_bounds (lo hi x : Nat) (h : lo ≤ hi) :
    limitOrZero lo hi x = 0 ∨ lo ≤ limitOrZero lo hi x ∧ limitOrZero lo hi x ≤ hi := by
  unfold limitOrZero; split
  · exact Or.inl rfl
  · exact Or.inr (limitNat_bounds lo hi x h)

/-! ## Template bins (R39) -/

/-- A bin below every listed one holds 0. -/
theorem binGet_of_lt (cells : List (Nat × Int)) (b : Nat) (h : ∀ c ∈ cells, b < c.1) : binGet cells b = 0 := by
  induction cells with
  | nil => rfl
  | cons c cells ih =>
      have h1 := h c (by simp)
      unfold binGet
      rw [if_neg (by omega)]
      exact ih fun d hd => h d (by simp [hd])

/-! ## Arbiters (R171, R174, R175) -/

/-- The order of an arbiter names every stream. -/
theorem mem_roundRobin (last k : StreamId) : k ∈ roundRobin last := by
  have h : ∀ last k : StreamId, k ∈ roundRobin last := by decide
  exact h last k

/-- A grant goes to a stream that asks. -/
theorem firstAfter_some {last k : StreamId} {p : StreamId → Bool} (h : firstAfter last p = some k) : p k = true :=
  List.find?_some h

/-- No grant is made exactly when no stream asks. -/
theorem firstAfter_none {last : StreamId} {p : StreamId → Bool} : firstAfter last p = none ↔ ∀ k, p k = false := by
  unfold firstAfter
  rw [List.find?_eq_none]
  constructor
  · intro h k
    simpa using h k (mem_roundRobin last k)
  · intro h k _
    simp [h k]

end Sys2Proof.Machine
end

