-- ==== Sys2Proof/Laws/Writes.lean ====
section
/-! SUPPORT. What issuing writes changes: the write queues, the writes under way and the write arbiter, and nothing else. -/

namespace Sys2Proof.Machine

/-! ## One write issued (R175) -/

/-- The tag of a gathered write is that of its first. -/
theorem gather_tag (w : Write) (rest : List Write) : (gather w rest).1.tag = w.tag := by
  induction rest generalizing w with
  | nil => rfl
  | cons v rest ih =>
      unfold gather
      split
      · rw [ih]
      · rfl

/-- The address of a gathered write is that of its first. -/
theorem gather_addr (w : Write) (rest : List Write) : (gather w rest).1.addr = w.addr := by
  induction rest generalizing w with
  | nil => rfl
  | cons v rest ih =>
      unfold gather
      split
      · rw [ih]
      · rfl

/-- What a gathered write leaves is the end of the queue. -/
theorem gather_suffix (w : Write) (rest : List Write) : (gather w rest).2 <:+ rest := by
  induction rest generalizing w with
  | nil => exact List.suffix_refl _
  | cons v rest ih =>
      unfold gather
      split
      · exact (ih _).trans (List.suffix_cons v rest)
      · exact List.suffix_refl _

/-- Fixing a finish word's value keeps whether the write is a data write. -/
theorem isData_resolveFinish (x : Stream) (w : Write) : isData (resolveFinish x w).tag = isData w.tag := by
  unfold resolveFinish
  split
  · next h => simp [stateWrite, h, isData]
  · rfl

/-- All that issuing one write can do: with an empty queue nothing, else the queue loses its front writes and one write
joins those under way. -/
theorem issueOne_cases (k : StreamId) (s : State) :
    ((s.stream k).queue = [] ∧ issueOne k s = s) ∨ ∃ w rest, (s.stream k).queue = w :: rest ∧
      issueOne k s = { onStream k (fun x => { x with queue := (gather w rest).2 }) s with
        issued := s.issued ++ [{ stream := k, write := resolveFinish (s.stream k) (gather w rest).1 }]
        writeLast := k } := by
  unfold issueOne
  split
  · next h => exact Or.inl ⟨h, rfl⟩
  · next w rest h => exact Or.inr ⟨w, rest, h, rfl⟩

/-- A change of one stream's queue keeps every stream but for its queue. -/
theorem onStream_queue_apart (k j : StreamId) (q : List Write) (s : State) :
    ((onStream k (fun x => { x with queue := q }) s).stream j).apart = (s.stream j).apart := by
  by_cases hj : j = k
  · subst hj; rw [onStream_self]; rfl
  · rw [onStream_ne k j _ s hj]

theorem issueOne_apart (k j : StreamId) (s : State) : ((issueOne k s).stream j).apart = (s.stream j).apart := by
  rcases issueOne_cases k s with ⟨_, h⟩ | ⟨w, rest, _, h⟩
  · rw [h]
  · rw [h]; exact onStream_queue_apart k j _ s

/-- Issuing a write takes writes from the front of one queue. -/
theorem issueOne_queue_suffix (k j : StreamId) (s : State) : ((issueOne k s).stream j).queue <:+ (s.stream j).queue := by
  rcases issueOne_cases k s with ⟨_, h⟩ | ⟨w, rest, hq, h⟩
  · rw [h]
  · have e : (issueOne k s).stream j = (onStream k (fun x => { x with queue := (gather w rest).2 }) s).stream j := by
      rw [h]; rfl
    rw [e]
    by_cases hj : j = k
    · subst hj
      rw [onStream_self, hq]
      exact (gather_suffix w rest).trans (List.suffix_cons w rest)
    · rw [onStream_ne k j _ s hj]

/-! ## Every write that can be issued (R175) -/

/-- What issuing one write keeps, issuing writes keeps. -/
theorem issueLoop_induct {P : State → Prop} (h1 : ∀ k s, issuable s k = true → P s → P (issueOne k s)) (n : Nat) (s : State)
    (hs : P s) : P (issueLoop n s) := by
  induction n generalizing s with
  | zero => exact hs
  | succ n ih =>
      unfold issueLoop
      split
      · exact hs
      · next k hk => exact ih _ (h1 k s (List.find?_some hk) hs)

/-- What issuing one write keeps, the drain keeps. -/
theorem drain_induct {P : State → Prop} (h1 : ∀ k s, issuable s k = true → P s → P (issueOne k s)) (s : State) (hs : P s) :
    P (drain s) :=
  issueLoop_induct h1 _ s hs

/-- The drain changes no stream but for its write queue. -/
@[simp] theorem drain_apart (j : StreamId) (s : State) : ((drain s).stream j).apart = (s.stream j).apart :=
  drain_induct (P := fun t => (t.stream j).apart = (s.stream j).apart)
    (fun k t _ h => (issueOne_apart k j t).trans h) s rfl

/-- Through the drain writes only leave a queue, from its front. -/
theorem drain_queue_suffix (j : StreamId) (s : State) : ((drain s).stream j).queue <:+ (s.stream j).queue :=
  drain_induct (P := fun t => (t.stream j).queue <:+ (s.stream j).queue)
    (fun k t _ h => (issueOne_queue_suffix k j t).trans h) s (List.suffix_refl _)

/-- A stream that can issue a write has one queued. -/
theorem queue_ne_nil_of_issuable (k : StreamId) (s : State) (h : issuable s k = true) : (s.stream k).queue ≠ [] := by
  intro e
  rw [issuable, e] at h
  cases h

/-- Issuing a write shortens the queue of its stream. -/
theorem issueOne_queue_length (k : StreamId) (s : State) (h : (s.stream k).queue ≠ []) :
    ((issueOne k s).stream k).queue.length < (s.stream k).queue.length := by
  rcases issueOne_cases k s with ⟨e, _⟩ | ⟨w, rest, hq, e⟩
  · exact absurd e h
  · rw [e]
    show ((onStream k (fun x => { x with queue := (gather w rest).2 }) s).stream k).queue.length < _
    rw [onStream_self, hq]
    exact Nat.lt_succ_of_le (gather_suffix w rest).length_le

/-- Issuing a write that can be issued leaves fewer queued. -/
theorem queuedWrites_issueOne (k : StreamId) (s : State) (h : issuable s k = true) :
    queuedWrites (issueOne k s) < queuedWrites s :=
  List.sum_lt_sum _ _ (fun j _ => (issueOne_queue_suffix k j s).length_le)
    ⟨k, List.mem_finRange k, issueOne_queue_length k s (queue_ne_nil_of_issuable k s h)⟩

/-- Steps beyond the number of queued writes issue nothing. -/
theorem issueLoop_stable (n m : Nat) (s : State) (hn : queuedWrites s ≤ n) (hm : queuedWrites s ≤ m) :
    issueLoop n s = issueLoop m s := by
  have idle : ∀ t : State, queuedWrites t = 0 → ∀ i, issueLoop i t = t := by
    intro t h i
    cases i with
    | zero => rfl
    | succ i =>
        unfold issueLoop
        split
        · rfl
        · next k hk => have := queuedWrites_issueOne k t (List.find?_some hk); omega
  induction n generalizing m s with
  | zero => rw [idle s (by omega), idle s (by omega)]
  | succ n ih =>
      cases m with
      | zero => rw [idle s (by omega), idle s (by omega)]
      | succ m =>
          unfold issueLoop
          split
          · rfl
          · next k hk =>
              have := queuedWrites_issueOne k s (List.find?_some hk)
              exact ih m _ (by omega) (by omega)

/-- The drain issues the next write of the first stream that can issue one, then drains (R175). -/
theorem drain_step (k : StreamId) (s : State) (h : firstAfter s.writeLast (issuable s) = some k) :
    drain s = drain (issueOne k s) := by
  have hk := queuedWrites_issueOne k s (List.find?_some h)
  have e : drain s = issueLoop (queuedWrites s + 1) s := issueLoop_stable _ _ s (by omega) (by omega)
  rw [e, issueLoop, h]
  exact issueLoop_stable _ _ _ (by omega) (by omega)

/-- With nothing that can be issued the drain does nothing. -/
theorem drain_of_none (s : State) (h : firstAfter s.writeLast (issuable s) = none) : drain s = s := by
  unfold drain
  cases queuedWrites s with
  | zero => rfl
  | succ n => rw [issueLoop, h]

/-! ## An ordered write under way (R175) -/

theorem joins_of_ordered (w v : Write) (h : isData w.tag = false ∨ isData v.tag = false) : joins w v = false := by
  unfold joins
  split
  · next h1 h2 => rw [h1, h2] at h; simp [isData] at h
  · rfl

/-- A gathered write leaves every ordered write in the queue. -/
theorem mem_gather_of_ordered (w v : Write) (rest : List Write) (hw : isData w.tag = false) (h : w ∈ rest) :
    w ∈ (gather v rest).2 := by
  induction rest generalizing v with
  | nil => exact h
  | cons a rest ih =>
      unfold gather
      split
      · next hj =>
          rcases List.mem_cons.1 h with rfl | h
          · rw [joins_of_ordered v w (Or.inr hw)] at hj; cases hj
          · exact ih _ h
      · exact h

/-- An ordered write that is no finish word is issued as it stands. -/
theorem gather_ordered (w : Write) (rest : List Write) (hw : isData w.tag = false) : gather w rest = (w, rest) := by
  cases rest with
  | nil => rfl
  | cons v rest => simp [gather, joins_of_ordered w v (Or.inl hw)]

theorem resolveFinish_other (x : Stream) (w : Write) (hw : ∀ tid released, w.tag ≠ .finish tid released) :
    resolveFinish x w = w := by
  unfold resolveFinish
  split
  · next h => exact absurd h (hw _ _)
  · rfl

theorem underWay_issueOne (j k : StreamId) (s : State) (w : Write) (hw : isData w.tag = false)
    (hf : ∀ tid released, w.tag ≠ .finish tid released) (h : UnderWay s k w) : UnderWay (issueOne j s) k w := by
  rcases issueOne_cases j s with ⟨_, e⟩ | ⟨v, rest, hq, e⟩
  · rw [e]; exact h
  · rw [e]
    rcases h with h | h
    · by_cases hj : k = j
      · subst hj
        rw [hq] at h
        rcases List.mem_cons.1 h with rfl | h
        · right
          simp [gather_ordered w rest hw, resolveFinish_other _ w hf]
        · left
          show w ∈ ((onStream k (fun x => { x with queue := (gather v rest).2 }) s).stream k).queue
          rw [onStream_self]
          exact mem_gather_of_ordered w v rest hw h
      · left
        show w ∈ ((onStream j (fun x => { x with queue := (gather v rest).2 }) s).stream k).queue
        rw [onStream_ne j k _ s hj]
        exact h
    · exact Or.inr (List.mem_append_left _ h)

/-- A write under way stays so while writes are issued: an ordered one that is no finish word. -/
theorem underWay_drain (k : StreamId) (s : State) (w : Write) (hw : isData w.tag = false)
    (hf : ∀ tid released, w.tag ≠ .finish tid released) (h : UnderWay s k w) : UnderWay (drain s) k w :=
  drain_induct (P := fun t => UnderWay t k w) (fun j t _ ht => underWay_issueOne j k t w hw hf ht) s h

/-! ## What the drain keeps -/

@[simp] theorem drain_enable (s : State) : (drain s).enable = s.enable :=
  drain_induct (P := fun t => t.enable = s.enable)
    (fun k t _ h => by rcases issueOne_cases k t with ⟨_, e⟩ | ⟨w, rest, _, e⟩ <;> (rw [e]; exact h)) s rfl

@[simp] theorem drain_faults (s : State) : (drain s).faults = s.faults :=
  drain_induct (P := fun t => t.faults = s.faults)
    (fun k t _ h => by rcases issueOne_cases k t with ⟨_, e⟩ | ⟨w, rest, _, e⟩ <;> (rw [e]; exact h)) s rfl

@[simp] theorem drain_lastFault (s : State) : (drain s).lastFault = s.lastFault :=
  drain_induct (P := fun t => t.lastFault = s.lastFault)
    (fun k t _ h => by rcases issueOne_cases k t with ⟨_, e⟩ | ⟨w, rest, _, e⟩ <;> (rw [e]; exact h)) s rfl

@[simp] theorem drain_polliv (s : State) : (drain s).polliv = s.polliv :=
  drain_induct (P := fun t => t.polliv = s.polliv)
    (fun k t _ h => by rcases issueOne_cases k t with ⟨_, e⟩ | ⟨w, rest, _, e⟩ <;> (rw [e]; exact h)) s rfl

@[simp] theorem drain_tbaseLo (s : State) : (drain s).tbaseLo = s.tbaseLo :=
  drain_induct (P := fun t => t.tbaseLo = s.tbaseLo)
    (fun k t _ h => by rcases issueOne_cases k t with ⟨_, e⟩ | ⟨w, rest, _, e⟩ <;> (rw [e]; exact h)) s rfl

@[simp] theorem drain_tbaseHi (s : State) : (drain s).tbaseHi = s.tbaseHi :=
  drain_induct (P := fun t => t.tbaseHi = s.tbaseHi)
    (fun k t _ h => by rcases issueOne_cases k t with ⟨_, e⟩ | ⟨w, rest, _, e⟩ <;> (rw [e]; exact h)) s rfl

@[simp] theorem drain_cmd (s : State) : (drain s).cmd = s.cmd :=
  drain_induct (P := fun t => t.cmd = s.cmd)
    (fun k t _ h => by rcases issueOne_cases k t with ⟨_, e⟩ | ⟨w, rest, _, e⟩ <;> (rw [e]; exact h)) s rfl

@[simp] theorem drain_evlatch (s : State) : (drain s).evlatch = s.evlatch :=
  drain_induct (P := fun t => t.evlatch = s.evlatch)
    (fun k t _ h => by rcases issueOne_cases k t with ⟨_, e⟩ | ⟨w, rest, _, e⟩ <;> (rw [e]; exact h)) s rfl

@[simp] theorem drain_evmap (s : State) : (drain s).evmap = s.evmap :=
  drain_induct (P := fun t => t.evmap = s.evmap)
    (fun k t _ h => by rcases issueOne_cases k t with ⟨_, e⟩ | ⟨w, rest, _, e⟩ <;> (rw [e]; exact h)) s rfl

@[simp] theorem drain_intx (s : State) : (drain s).intx = s.intx :=
  drain_induct (P := fun t => t.intx = s.intx)
    (fun k t _ h => by rcases issueOne_cases k t with ⟨_, e⟩ | ⟨w, rest, _, e⟩ <;> (rw [e]; exact h)) s rfl

@[simp] theorem drain_msgEnabled (s : State) : (drain s).msgEnabled = s.msgEnabled :=
  drain_induct (P := fun t => t.msgEnabled = s.msgEnabled)
    (fun k t _ h => by rcases issueOne_cases k t with ⟨_, e⟩ | ⟨w, rest, _, e⟩ <;> (rw [e]; exact h)) s rfl

@[simp] theorem drain_msgVectors (s : State) : (drain s).msgVectors = s.msgVectors :=
  drain_induct (P := fun t => t.msgVectors = s.msgVectors)
    (fun k t _ h => by rcases issueOne_cases k t with ⟨_, e⟩ | ⟨w, rest, _, e⟩ <;> (rw [e]; exact h)) s rfl

@[simp] theorem drain_messages (s : State) : (drain s).messages = s.messages :=
  drain_induct (P := fun t => t.messages = s.messages)
    (fun k t _ h => by rcases issueOne_cases k t with ⟨_, e⟩ | ⟨w, rest, _, e⟩ <;> (rw [e]; exact h)) s rfl

@[simp] theorem drain_engineLast (s : State) : (drain s).engineLast = s.engineLast :=
  drain_induct (P := fun t => t.engineLast = s.engineLast)
    (fun k t _ h => by rcases issueOne_cases k t with ⟨_, e⟩ | ⟨w, rest, _, e⟩ <;> (rw [e]; exact h)) s rfl

@[simp] theorem drain_engine (s : State) : (drain s).engine = s.engine :=
  drain_induct (P := fun t => t.engine = s.engine)
    (fun k t _ h => by rcases issueOne_cases k t with ⟨_, e⟩ | ⟨w, rest, _, e⟩ <;> (rw [e]; exact h)) s rfl

@[simp] theorem drain_fetchLast (s : State) : (drain s).fetchLast = s.fetchLast :=
  drain_induct (P := fun t => t.fetchLast = s.fetchLast)
    (fun k t _ h => by rcases issueOne_cases k t with ⟨_, e⟩ | ⟨w, rest, _, e⟩ <;> (rw [e]; exact h)) s rfl

@[simp] theorem drain_fetch (s : State) : (drain s).fetch = s.fetch :=
  drain_induct (P := fun t => t.fetch = s.fetch)
    (fun k t _ h => by rcases issueOne_cases k t with ⟨_, e⟩ | ⟨w, rest, _, e⟩ <;> (rw [e]; exact h)) s rfl

@[simp] theorem drain_pending (s : State) : (drain s).pending = s.pending :=
  drain_induct (P := fun t => t.pending = s.pending)
    (fun k t _ h => by rcases issueOne_cases k t with ⟨_, e⟩ | ⟨w, rest, _, e⟩ <;> (rw [e]; exact h)) s rfl

/-! ## Fields of streams after a drain -/

theorem Stream.state_of_apart {x y : Stream} (h : x.apart = y.apart) : x.state = y.state := by
  have e := congrArg Stream.state h; exact e

theorem Stream.tag_of_apart {x y : Stream} (h : x.apart = y.apart) : x.tag = y.tag := by
  have e := congrArg Stream.tag h; exact e

theorem Stream.position_of_apart {x y : Stream} (h : x.apart = y.apart) : x.position = y.position := by
  have e := congrArg Stream.position h; exact e

theorem Stream.taken_of_apart {x y : Stream} (h : x.apart = y.apart) : x.taken = y.taken := by
  have e := congrArg Stream.taken h; exact e

theorem Stream.slot0_of_apart {x y : Stream} (h : x.apart = y.apart) : x.slot0 = y.slot0 := by
  have e := congrArg Stream.slot0 h; exact e

theorem Stream.slot1_of_apart {x y : Stream} (h : x.apart = y.apart) : x.slot1 = y.slot1 := by
  have e := congrArg Stream.slot1 h; exact e

theorem Stream.failing_of_apart {x y : Stream} (h : x.apart = y.apart) : x.failing = y.failing := by
  have e := congrArg Stream.failing h; exact e

theorem Stream.halt_of_apart {x y : Stream} (h : x.apart = y.apart) : x.halt = y.halt := by
  have e := congrArg Stream.halt h; exact e

theorem Stream.skip_of_apart {x y : Stream} (h : x.apart = y.apart) : x.skip = y.skip := by
  have e := congrArg Stream.skip h; exact e

theorem Stream.openCode_of_apart {x y : Stream} (h : x.apart = y.apart) : x.openCode = y.openCode := by
  have e := congrArg Stream.openCode h; exact e

theorem Stream.progressAddr_of_apart {x y : Stream} (h : x.apart = y.apart) : x.progressAddr = y.progressAddr := by
  have e := congrArg Stream.progressAddr h; exact e

theorem Stream.counters_of_apart {x y : Stream} (h : x.apart = y.apart) : x.counters = y.counters := by
  have e := congrArg Stream.counters h; exact e

theorem Stream.ctx_of_apart {x y : Stream} (h : x.apart = y.apart) : x.ctx = y.ctx := by
  have e := congrArg Stream.ctx h; exact e

theorem Stream.schedule_of_apart {x y : Stream} (h : x.apart = y.apart) : x.schedule = y.schedule := by
  have e := congrArg Stream.schedule h; exact e

theorem Stream.chain_of_apart {x y : Stream} (h : x.apart = y.apart) : x.chain = y.chain := by
  have e := congrArg Stream.chain h; exact e

theorem Stream.timer_of_apart {x y : Stream} (h : x.apart = y.apart) : x.timer = y.timer := by
  have e := congrArg Stream.timer h; exact e

theorem Stream.readDue_of_apart {x y : Stream} (h : x.apart = y.apart) : x.readDue = y.readDue := by
  have e := congrArg Stream.readDue h; exact e

theorem Stream.pollAgain_of_apart {x y : Stream} (h : x.apart = y.apart) : x.pollAgain = y.pollAgain := by
  have e := congrArg Stream.pollAgain h; exact e

theorem Stream.openDue_of_apart {x y : Stream} (h : x.apart = y.apart) : x.openDue = y.openDue := by
  have e := congrArg Stream.openDue h; exact e

theorem Stream.staging_of_apart {x y : Stream} (h : x.apart = y.apart) : x.staging = y.staging := by
  have e := congrArg Stream.staging h; exact e

theorem Stream.flushMade_of_apart {x y : Stream} (h : x.apart = y.apart) : x.flushMade = y.flushMade := by
  have e := congrArg Stream.flushMade h; exact e

theorem Stream.gaveBack_of_apart {x y : Stream} (h : x.apart = y.apart) : x.gaveBack = y.gaveBack := by
  have e := congrArg Stream.gaveBack h; exact e

theorem Stream.owed_of_apart {x y : Stream} (h : x.apart = y.apart) : x.owed = y.owed := by
  have e := congrArg Stream.owed h; exact e

theorem Stream.takes_of_apart {x y : Stream} (h : x.apart = y.apart) : x.takes = y.takes := by
  have e := congrArg Stream.takes h; exact e

@[simp] theorem drain_stream_state (j : StreamId) (s : State) : ((drain s).stream j).state = (s.stream j).state :=
  Stream.state_of_apart (drain_apart j s)

@[simp] theorem drain_stream_tag (j : StreamId) (s : State) : ((drain s).stream j).tag = (s.stream j).tag :=
  Stream.tag_of_apart (drain_apart j s)

@[simp] theorem drain_stream_position (j : StreamId) (s : State) : ((drain s).stream j).position = (s.stream j).position :=
  Stream.position_of_apart (drain_apart j s)

@[simp] theorem drain_stream_taken (j : StreamId) (s : State) : ((drain s).stream j).taken = (s.stream j).taken :=
  Stream.taken_of_apart (drain_apart j s)

@[simp] theorem drain_stream_slot0 (j : StreamId) (s : State) : ((drain s).stream j).slot0 = (s.stream j).slot0 :=
  Stream.slot0_of_apart (drain_apart j s)

@[simp] theorem drain_stream_slot1 (j : StreamId) (s : State) : ((drain s).stream j).slot1 = (s.stream j).slot1 :=
  Stream.slot1_of_apart (drain_apart j s)

@[simp] theorem drain_stream_failing (j : StreamId) (s : State) : ((drain s).stream j).failing = (s.stream j).failing :=
  Stream.failing_of_apart (drain_apart j s)

@[simp] theorem drain_stream_halt (j : StreamId) (s : State) : ((drain s).stream j).halt = (s.stream j).halt :=
  Stream.halt_of_apart (drain_apart j s)

@[simp] theorem drain_stream_skip (j : StreamId) (s : State) : ((drain s).stream j).skip = (s.stream j).skip :=
  Stream.skip_of_apart (drain_apart j s)

@[simp] theorem drain_stream_openCode (j : StreamId) (s : State) : ((drain s).stream j).openCode = (s.stream j).openCode :=
  Stream.openCode_of_apart (drain_apart j s)

@[simp] theorem drain_stream_progressAddr (j : StreamId) (s : State) : ((drain s).stream j).progressAddr = (s.stream j).progressAddr :=
  Stream.progressAddr_of_apart (drain_apart j s)

@[simp] theorem drain_stream_counters (j : StreamId) (s : State) : ((drain s).stream j).counters = (s.stream j).counters :=
  Stream.counters_of_apart (drain_apart j s)

@[simp] theorem drain_stream_ctx (j : StreamId) (s : State) : ((drain s).stream j).ctx = (s.stream j).ctx :=
  Stream.ctx_of_apart (drain_apart j s)

@[simp] theorem drain_stream_schedule (j : StreamId) (s : State) : ((drain s).stream j).schedule = (s.stream j).schedule :=
  Stream.schedule_of_apart (drain_apart j s)

@[simp] theorem drain_stream_chain (j : StreamId) (s : State) : ((drain s).stream j).chain = (s.stream j).chain :=
  Stream.chain_of_apart (drain_apart j s)

@[simp] theorem drain_stream_timer (j : StreamId) (s : State) : ((drain s).stream j).timer = (s.stream j).timer :=
  Stream.timer_of_apart (drain_apart j s)

@[simp] theorem drain_stream_readDue (j : StreamId) (s : State) : ((drain s).stream j).readDue = (s.stream j).readDue :=
  Stream.readDue_of_apart (drain_apart j s)

@[simp] theorem drain_stream_pollAgain (j : StreamId) (s : State) : ((drain s).stream j).pollAgain = (s.stream j).pollAgain :=
  Stream.pollAgain_of_apart (drain_apart j s)

@[simp] theorem drain_stream_openDue (j : StreamId) (s : State) : ((drain s).stream j).openDue = (s.stream j).openDue :=
  Stream.openDue_of_apart (drain_apart j s)

@[simp] theorem drain_stream_staging (j : StreamId) (s : State) : ((drain s).stream j).staging = (s.stream j).staging :=
  Stream.staging_of_apart (drain_apart j s)

@[simp] theorem drain_stream_flushMade (j : StreamId) (s : State) : ((drain s).stream j).flushMade = (s.stream j).flushMade :=
  Stream.flushMade_of_apart (drain_apart j s)

@[simp] theorem drain_stream_gaveBack (j : StreamId) (s : State) : ((drain s).stream j).gaveBack = (s.stream j).gaveBack :=
  Stream.gaveBack_of_apart (drain_apart j s)

@[simp] theorem drain_stream_owed (j : StreamId) (s : State) : ((drain s).stream j).owed = (s.stream j).owed :=
  Stream.owed_of_apart (drain_apart j s)

@[simp] theorem drain_stream_takes (j : StreamId) (s : State) : ((drain s).stream j).takes = (s.stream j).takes :=
  Stream.takes_of_apart (drain_apart j s)

/-- Writes that are issued join those under way at their end. -/
theorem drain_issued (s : State) : ∃ next, (drain s).issued = s.issued ++ next :=
  drain_induct (P := fun t => ∃ next, t.issued = s.issued ++ next)
    (fun k t _ h => by
      obtain ⟨next, e⟩ := h
      rcases issueOne_cases k t with ⟨_, h⟩ | ⟨w, rest, _, h⟩ <;> rw [h]
      · exact ⟨next, e⟩
      · exact ⟨next ++ _, by rw [e, List.append_assoc]⟩) s ⟨[], by simp⟩

/-- A drain keeps every stream but for the writes that leave its queue. -/
theorem othersKept_drain {k : StreamId} {s t : State} (h : OthersKept k s t) : OthersKept k s (drain t) :=
  fun j hj => ⟨(drain_apart j t).trans (h j hj).1, (drain_queue_suffix j t).trans (h j hj).2⟩

end Sys2Proof.Machine
end

