-- ==== Sys2Proof/Laws/Operations.lean ====
section
/-! SUPPORT. What each shared operation on a stream can do, said once. -/

namespace Sys2Proof.Machine

/-! ## Entries to STOPPED, AWAIT_LINK and HALTING -/

/-- All that settling a stop can do: nothing, or, for a STOPPING stream with no block and no fetch in progress, the entry to
STOPPED when its list is empty, else the giving back of what has not begun. -/
theorem settleStop_cases (k : StreamId) (s : State) :
    settleStop k s = s ∨ ((s.stream k).state = .stopping ∧ serving s k = false ∧ fetching s k = false ∧
      (((s.stream k).taken = [] ∧
          settleStop k s = enterStopped k (onStream k (fun y => { y with position := stopPosition y }) s)) ∨
        ((s.stream k).taken ≠ [] ∧ settleStop k s = onStream k giveBackUnbegun s))) := by
  by_cases h : (s.stream k).state = .stopping ∧ serving s k = false ∧ fetching s k = false
  · refine Or.inr ⟨h.1, h.2.1, h.2.2, ?_⟩
    by_cases he : (s.stream k).taken = []
    · exact Or.inl ⟨he, by rw [settleStop, if_pos h, if_pos he]⟩
    · exact Or.inr ⟨he, by rw [settleStop, if_pos h, if_neg he]⟩
  · exact Or.inl (if_neg h)

/-- All that the check for AWAIT_LINK can do: nothing, or the entry of a RUNNING stream with every sample voted. -/
theorem awaitIfVoted_cases (k : StreamId) (s : State) :
    awaitIfVoted k s = s ∨ ((s.stream k).state = .running ∧ serving s k = false ∧ allVoted (s.stream k) = true ∧
      awaitIfVoted k s = onStream k (enterState k .awaitLink) s) := by
  by_cases h : (s.stream k).state = .running ∧ serving s k = false ∧ allVoted (s.stream k) = true
  · exact Or.inr ⟨h.1, h.2.1, h.2.2, if_pos h⟩
  · exact Or.inl (if_neg h)

/-- A failure is recorded in RUNNING, AWAIT_LINK and STOPPING (R125). -/
theorem failSpan_of_records (k : StreamId) (h : Halt) (s : State) (hs : recordsFailure (s.stream k).state = true) :
    failSpan k h s = onStream k (enterHalting k h) s := by
  unfold failSpan
  revert hs
  cases (s.stream k).state <;> simp [recordsFailure]

/-- A failure is not recorded in any other state (R126). -/
theorem failSpan_of_not_records (k : StreamId) (h : Halt) (s : State) (hs : recordsFailure (s.stream k).state = false) :
    failSpan k h s = s := by
  unfold failSpan
  revert hs
  cases (s.stream k).state <;> simp [recordsFailure]

/-- A stream that a failure halts (R125). -/
theorem enterHalting_halts (k : StreamId) (h : Halt) (x : Stream) : HaltsWith h x (enterHalting k h x) := by
  simp [HaltsWith, enterHalting, endWait]

/-! ## The beginning of a take (R144) -/

/-- A take at an aligned address reads its header. -/
theorem beginTake_of_aligned (k : StreamId) (addr : Nat) (s : State) (h : addr % 64 = 0) :
    beginTake k addr s = { onStream k (fun x => endWait { x with position := .span addr }) s with
      fetch := some { stream := k, phase := .header addr } } := by
  rw [beginTake, if_pos h]

/-- A take at an address that is not aligned fails with DESC_INVALID. -/
theorem beginTake_of_misaligned (k : StreamId) (addr : Nat) (s : State) (h : addr % 64 ≠ 0) :
    beginTake k addr s = failTake k addr 0 .descInvalid
      (onStream k (fun x => endWait { x with position := .span addr }) s) := by
  rw [beginTake, if_neg h]

/-! ## Transitions in progress (R185) -/

/-- The Command Unit's check is the transition in progress of the statements. -/
theorem inTransition_iff (s : State) (k : StreamId) : inTransition s k = true ↔ InTransition s k := by
  simp [inTransition, rollingBack, InTransition, and_assoc]

/-! ## Other streams -/

theorem othersKept_settleStop (k : StreamId) (s : State) : OthersKept k s (settleStop k s) := by
  rcases settleStop_cases k s with h | ⟨_, _, _, ⟨_, h⟩ | ⟨_, h⟩⟩
  · rw [h]; exact OthersKept.refl k s
  · rw [h]; exact OthersKept.of_eq fun j hj => by rw [enterStopped_ne k j _ hj, onStream_ne k j _ s hj]
  · rw [h]; exact othersKept_onStream k _ s

theorem othersKept_awaitIfVoted (k : StreamId) (s : State) : OthersKept k s (awaitIfVoted k s) := by
  rcases awaitIfVoted_cases k s with h | ⟨_, _, _, h⟩
  · rw [h]; exact OthersKept.refl k s
  · rw [h]; exact othersKept_onStream k _ s

theorem othersKept_failSpan (k : StreamId) (h : Halt) (s : State) : OthersKept k s (failSpan k h s) := by
  cases hs : recordsFailure (s.stream k).state
  · rw [failSpan_of_not_records k h s hs]; exact OthersKept.refl k s
  · rw [failSpan_of_records k h s hs]; exact othersKept_onStream k _ s

theorem othersKept_endFetch (k : StreamId) (s : State) : OthersKept k s (endFetch s) :=
  OthersKept.of_eq fun j _ => by rw [endFetch_stream]

theorem othersKept_failTake (k : StreamId) (addr : Nat) (echo : Seq) (code : Completion) (s : State) :
    OthersKept k s (failTake k addr echo code s) :=
  (othersKept_endFetch k s).trans (othersKept_failSpan k _ _)

theorem othersKept_failTaken (k : StreamId) (tid : Nat) (code : Completion) (s : State) :
    OthersKept k s (failTaken k tid code s) := by
  unfold failTaken
  split
  · exact OthersKept.refl k s
  · exact (othersKept_onStream k _ s).trans (othersKept_failSpan k _ _)

theorem othersKept_beginTake (k : StreamId) (addr : Nat) (s : State) : OthersKept k s (beginTake k addr s) := by
  by_cases h : addr % 64 = 0
  · rw [beginTake_of_aligned k addr s h]
    intro j hj; exact othersKept_onStream k (fun x => endWait { x with position := .span addr }) s j hj
  · rw [beginTake_of_misaligned k addr s h]
    exact (othersKept_onStream k _ s).trans (othersKept_failTake k _ _ _ _)

theorem othersKept_followLink (k : StreamId) (anchor link : Nat) (s : State) : OthersKept k s (followLink k anchor link s) := by
  unfold followLink
  split
  · exact othersKept_beginTake k link s
  · split
    · exact (othersKept_onStream k _ s).trans (othersKept_beginTake k _ _)
    · exact (othersKept_onStream k _ s).trans (othersKept_beginTake k _ _)

theorem othersKept_signal (k : StreamId) (c : Cause) (s : State) : OthersKept k s (signal c s) :=
  OthersKept.of_eq fun j _ => by rw [signal_stream]

theorem othersKept_markStale (k j : StreamId) (s : State) : OthersKept k s (markStale j s) :=
  OthersKept.of_eq fun i _ => by rw [markStale_stream]

/-- STOP, ABORT and CLOSE leave the fetch transaction in progress, a wait read of the stream marked (R173). -/
theorem markStale_fetchStays (k : StreamId) (s : State) : FetchStays k s (markStale k s) := by
  constructor
  · intro target a whole stale h
    simp [markStale, h]
  · intro h
    unfold markStale
    split
    · next j target addr whole stale e =>
        split
        · next hj => subst hj; exact absurd e (h _ _ _ _)
        · rfl
    · rfl

/-! ## The writes under way (R175) -/

theorem settleStop_issued (k : StreamId) (s : State) : (settleStop k s).issued = s.issued := by
  rcases settleStop_cases k s with h | ⟨_, _, _, ⟨_, h⟩ | ⟨_, h⟩⟩ <;> rw [h] <;> simp [enterStopped]

theorem failSpan_issued (k : StreamId) (h : Halt) (s : State) : (failSpan k h s).issued = s.issued := by
  unfold failSpan; split <;> simp

theorem failTake_issued (k : StreamId) (addr : Nat) (echo : Seq) (code : Completion) (s : State) :
    (failTake k addr echo code s).issued = s.issued :=
  failSpan_issued k _ (endFetch s)

theorem failTaken_issued (k : StreamId) (tid : Nat) (code : Completion) (s : State) :
    (failTaken k tid code s).issued = s.issued := by
  unfold failTaken; split
  · rfl
  · rw [failSpan_issued]; simp

theorem beginTake_issued (k : StreamId) (addr : Nat) (s : State) : (beginTake k addr s).issued = s.issued := by
  unfold beginTake; dsimp only; split
  · simp
  · rw [failTake_issued]; simp

theorem notifyIf_issued (b : Bool) (s : State) : (notifyIf b s).issued = s.issued := by
  unfold notifyIf; split <;> simp

/-- What follows a write reported done issues nothing itself. -/
theorem onDone_issued (k : StreamId) (w : Write) (s : State) : (onDone k w s).issued = s.issued := by
  unfold onDone; split <;> try rfl
  · unfold finishDone; split
    · rfl
    · rw [settleStop_issued, notifyIf_issued]; simp
  · unfold activeDone; split
    · split
      · rw [settleStop_issued]; simp [endFetch]
      · rfl
    · rfl
  · unfold giveBackDone; rw [settleStop_issued]; simp
  · unfold skipDone; split
    · split
      · dsimp only; split
        · rw [beginTake_issued, notifyIf_issued]; simp [endFetch]
        · rw [settleStop_issued, notifyIf_issued]; simp [endFetch]
      · rfl
    · rfl

/-- What follows a failed write issues nothing itself. -/
theorem onFailed_issued (k : StreamId) (w : Write) (s : State) : (onFailed k w s).issued = s.issued := by
  unfold onFailed activeFailed skipFailed stateFault
  split <;> simp [failTaken_issued] <;> split <;> try split
  all_goals simp [failTake_issued]

/-! ## Giving back (R123) -/

/-- Marking a span of the list keeps the list's spans. -/
theorem onTaken_map {α : Type} (f : Taken → α) (g : Taken → Taken) (hg : ∀ t, f (g t) = f t) (tid : Nat) (x : Stream) :
    (onTaken tid g x).taken.map f = x.taken.map f := by
  unfold onTaken
  rw [List.map_map]
  apply List.map_congr_left
  intro t _
  dsimp
  split
  · exact hg t
  · rfl

end Sys2Proof.Machine
end

