-- ==== Sys2Proof/Laws/PerInstr.lean ====
section
/-! SUPPORT. For every command: a well-formed one is no full register write of a register with a row of its own. -/

namespace Sys2Proof.Laws.OwnRow

/-- A full register write that is well-formed names no register whose full write is another command (R182, R184, R186, R191,
R192). -/
def Statement (c : Instr) : Prop :=
  c.wellFormed = true → ∀ (offset : BitVec 6) (value : Word32), c = .registerWrite offset 4 value → hasOwnRow offset = false

theorem cmdOpen (f : BitVec 4) (k : Bool) (g : BitVec 16) : Statement (.cmdOpen f k g) :=
  fun _ _ _ e => nomatch e

theorem cmdStop (f : BitVec 4) (k : Bool) (g : BitVec 16) : Statement (.cmdStop f k g) :=
  fun _ _ _ e => nomatch e

theorem cmdAbort (f : BitVec 4) (k : Bool) (g : BitVec 16) : Statement (.cmdAbort f k g) :=
  fun _ _ _ e => nomatch e

theorem cmdResume (f : BitVec 4) (k : Bool) (g : BitVec 16) : Statement (.cmdResume f k g) :=
  fun _ _ _ e => nomatch e

theorem cmdClose (f : BitVec 4) (k : Bool) (g : BitVec 16) : Statement (.cmdClose f k g) :=
  fun _ _ _ e => nomatch e

theorem cmdPoll (f : BitVec 4) (k : Bool) (g : BitVec 16) : Statement (.cmdPoll f k g) :=
  fun _ _ _ e => nomatch e

theorem cmdUndefined (u : UndefinedCode) (f : BitVec 4) (k : Bool) (g : BitVec 16) : Statement (.cmdUndefined u f k g) :=
  fun _ _ _ e => nomatch e

theorem commandDispatch : Statement .commandDispatch :=
  fun _ _ _ e => nomatch e

theorem enable (on : Bool) : Statement (.enable on) :=
  fun _ _ _ e => nomatch e

theorem deviceReset (r : ResetCause) : Statement (.deviceReset r) :=
  fun _ _ _ e => nomatch e

theorem devstatClear (v : Word32) : Statement (.devstatClear v) :=
  fun _ _ _ e => nomatch e

theorem evlatchClear (v : Word32) : Statement (.evlatchClear v) :=
  fun _ _ _ e => nomatch e

theorem evmapWrite (v : Word32) : Statement (.evmapWrite v) :=
  fun _ _ _ e => nomatch e

theorem registerWrite (o : BitVec 6) (n : Nat) (v : Word32) : Statement (.registerWrite o n v) := by
  intro h offset value e
  cases e
  simpa [Instr.wellFormed] using h

theorem messageSignallingChange (e : Bool) (n : VectorCount) : Statement (.messageSignallingChange e n) :=
  fun _ _ _ e => nomatch e

theorem fetchGrant : Statement .fetchGrant :=
  fun _ _ _ e => nomatch e

theorem laneReadDone (ls : List ReadResult) : Statement (.laneReadDone ls) :=
  fun _ _ _ e => nomatch e

theorem headerReadDone (d : ReadResult) : Statement (.headerReadDone d) :=
  fun _ _ _ e => nomatch e

theorem marksReadDone (d : ReadResult) : Statement (.marksReadDone d) :=
  fun _ _ _ e => nomatch e

theorem takeProfileReadDone (d : ReadResult) : Statement (.takeProfileReadDone d) :=
  fun _ _ _ e => nomatch e

theorem waitReadDone (d : ReadResult) : Statement (.waitReadDone d) :=
  fun _ _ _ e => nomatch e

theorem entryReadDone (d : ReadResult) : Statement (.entryReadDone d) :=
  fun _ _ _ e => nomatch e

theorem openProfileReadDone (d : ReadResult) : Statement (.openProfileReadDone d) :=
  fun _ _ _ e => nomatch e

theorem pollTimerExpiry (j : StreamId) : Statement (.pollTimerExpiry j) :=
  fun _ _ _ e => nomatch e

theorem engineGrant : Statement .engineGrant :=
  fun _ _ _ e => nomatch e

theorem blockEnd : Statement .blockEnd :=
  fun _ _ _ e => nomatch e

theorem rollback (j : StreamId) : Statement (.rollback j) :=
  fun _ _ _ e => nomatch e

theorem writeDone (n : Nat) (b : Bool) : Statement (.writeDone n b) :=
  fun _ _ _ e => nomatch e

end Sys2Proof.Laws.OwnRow
end

