-- ==== Sys2Proof/Tests/Slice0.lean ====
section
/-! SUPPORT. Tests: ill-formed commands refused, the manual's worked values, and states that meet the hypotheses of the
statements. -/

namespace Sys2Proof.Tests

open Sys2Proof Sys2Proof.Machine

/-! The tests are elaborated one after another: each is short, and a thread for each would take more memory than all of them need. -/

set_option Elab.async false

/-! ## Ill-formed commands -/

theorem test_illformed_register_write_of_no_byte : Instr.wellFormed (.registerWrite 0x0C#6 0 0#32) = false := by decide

theorem test_illformed_register_write_of_five_bytes : Instr.wellFormed (.registerWrite 0x0C#6 5 0#32) = false := by decide

theorem test_illformed_register_write_with_own_row :
    ([0x04#6, 0x08#6, 0x18#6, 0x1C#6, 0x20#6].map fun o => Instr.wellFormed (.registerWrite o 4 0#32)) =
      [false, false, false, false, false] := by decide

theorem test_illformed_two_lanes : Instr.wellFormed (.laneReadDone [none, none]) = false := by decide

theorem test_illformed_header_of_127_bytes :
    Instr.wellFormed (.headerReadDone (some (List.replicate 127 0#8))) = false := by decide +kernel

theorem test_illformed_marks_of_twelve_bytes :
    Instr.wellFormed (.marksReadDone (some (List.replicate 12 0#8))) = false := by decide

theorem test_illformed_profile_of_63_bytes :
    Instr.wellFormed (.takeProfileReadDone (some (List.replicate 63 0#8))) = false := by decide

theorem test_illformed_wait_read_of_5_bytes :
    Instr.wellFormed (.waitReadDone (some (List.replicate 5 0#8))) = false := by decide

theorem test_illformed_entry_of_65_bytes :
    Instr.wellFormed (.entryReadDone (some (List.replicate 65 0#8))) = false := by decide

theorem test_illformed_open_profile_of_no_byte : Instr.wellFormed (.openProfileReadDone (some [])) = false := by decide

/-! ## Words -/

/-- No row of the table gives bits. -/
theorem test_no_word_spells_a_command : decodeTableWord 32 0x10C13A91 = none := by decide

/-- 10.1: the ID register. -/
theorem test_id_bytes : [readWindow State.reset 0, readWindow State.reset 1, readWindow State.reset 2,
    readWindow State.reset 3] = [0x91#8, 0x3A#8, 0xC1#8, 0x10#8] := by decide

/-- R108: the check value of the nine ASCII bytes 1 to 9. -/
theorem test_crc_check_value :
    crcFinish (crcBytes crcStart [0x31, 0x32, 0x33, 0x34, 0x35, 0x36, 0x37, 0x38, 0x39]) = 0xCBF43926#32 := by decide +kernel

/-! ## Chapter 1 -/

/-- 1.6, Decoding containers. -/
theorem test_decode_l16_big : decodeL16 .big 0xFF#8 0x38#8 = .value (-51200) := by decide

theorem test_decode_l24_little : decodeL24 .little 0x18#8 0xFC#8 0xFF#8 0x00#8 = .value (-1000) := by decide

theorem test_decode_voids : decodeL16 .big 0x80#8 0x00#8 = .void .scanner ∧
    decodeL24 .little 0x00#8 0x00#8 0x80#8 0x7F#8 = .void .scanner := by decide

/-- 1.6, A vote sequence with a retirement: the lane state before position n. -/
def voteStart : LaneState :=
  { retired := none, counts := #v[0, 1, 2], counter := 10000, history := [4100, 4150] }

/-- Positions n to n + 2 of that sequence. -/
def voteRetired : LaneState :=
  (combine 1000 3 (.three (.value 3900) (.value 3905) (.value 5000))
    (combine 1000 3 (.three (.value 3950) (.value 3960) (.void .scanner))
      (combine 1000 3 (.three (.value 4010) (.value 3990) (.value 6500)) voteStart).2.1).2.1).2.1

theorem test_vote_retires_lane_2 :
    voteRetired = { retired := some 2, counts := #v[0, 0, 0], counter := 0, history := [3905, 3955] } := by decide

theorem test_vote_unresolved :
    (combine 1000 3 (.three (.value 3860) (.value 4950) (.value 6000)) voteRetired).1 =
      { v := .value 3860, disputed := true, unresolved := true, outlier := some 1 } := by decide

/-- 1.6, A prediction tie after OPEN. -/
theorem test_vote_prediction_tie :
    (combine 0 0 (.three (.value 1200) (.value (-1200)) (.void .scanner)) freshLanes).1.v = .value 1200 := by decide

/-! ## Chapters 2 and 3 -/

/-- 2.8: the marks list of span S. -/
def markS (offset : Nat) (frameStart protect hissRef splice : Bool) : Mark :=
  { offset := offset, frameStart := frameStart, protect := protect, hissRef := hissRef, splice := splice }

def marksS : List Mark :=
  [markS 118 true false true false, markS 617 false false false false, markS 600 false false false false,
   markS 1115 false false false true, markS 1611 true true false false, markS 2109 true false false false,
   markS 2606 false false false false, markS 6200 false false false false]

theorem test_schedule_of_2_8 :
    (buildSchedule 40000 2000 marksS).accepted.map Mark.offset = [40118, 40617, 41115, 41611] ∧
    (buildSchedule 40000 2000 marksS).lookAhead.map Mark.offset = [42109, 42606] ∧ marksIgnored 2000 marksS = 2 := by decide

theorem test_phase_of_2_8 :
    phaseAt (buildSchedule 40000 2000 marksS)
      { pk := some 39620, period := some 498, protect := false, hissRef := true, bumpEnd := none } 40000 =
      some (48, false) := by decide

/-- 3.8, A subtraction and its updates. -/
def hum38 : HumState :=
  { perf := { cells := [(5, 12800)] }, line := { cells := [(7, -3300)] }, counter := 7 }

theorem test_hum_subtraction : cancelHum 10 960 (some 5) hum38 (.value 4010) = (.value 3973, false) := by decide

theorem test_hum_updates : bin (learn 10 12 960 (some 5) 301 hum38).perf 5 = 12875 ∧
    bin (learn 10 12 960 (some 5) 301 hum38).line 7 = -3281 ∧ learnDelta 10 (-302) = -75 ∧ learnDelta 6 301 = 1204 := by
  decide

/-! ## Chapters 4 and 5 -/

/-- 4.10, Detection thresholds. -/
theorem test_noise_update : detects 48 100 3200 1500 = true ∧ detects 48 100 3200 150 = false ∧
    moveNoise 50 150 3200 = 3188 := by decide

/-- 4.10, A click window and its repair. -/
theorem test_repair_line : [1, 2, 3, 4].map (lineValue 1000 299 4) = [860, 720, 579, 439] := by decide

def hissParams59 : HissParams :=
  { splitShift := 3, envShift := 4, initial := 0, refMult := 12, thMin := 50, thMax := 2000, gainFloor := 64 }

def hiss59 (low env : Int) : HissState :=
  { low := low, env := env, th := 51200, prevSpan := some 0, inUse := hissParams59, pendingParams := none }

/-- 5.9, Split, envelope, gain and output of one sample. -/
theorem test_hiss_sample :
    hissSample 0 false (.value 540) (hiss59 128000 25600) = (.value 522, false, hiss59 129280 24560) := by decide

theorem test_hiss_threshold : learnedThreshold hissParams59 24560 = 73680 ∧ learnedThreshold hissParams59 1000 = 12800 := by
  decide

/-- 5.9, Saturation at the L16 limits. -/
theorem test_l16_outputs : [-51200, 8388479, 8388500, -8388607].map (outputValue .l16) =
    [(-200, false), (32767, false), (32767, true), (-32767, true)] := by decide

theorem test_output_bytes : containerBytes .l16 .little 2 = [0x02#8, 0x00#8] ∧
    containerBytes .l24 .little 522 = [0x0A#8, 0x02#8, 0x00#8, 0x00#8] ∧
    containerBytes .l16 .big (-32767) = [0x80#8, 0x01#8] := by decide

/-- 5.9, Voted signature bytes. -/
theorem test_voted_bytes : votedBytes (.value 4010) = [0xAA#8, 0x0F#8, 0x00#8] ∧
    votedBytes (.void .fetch) = [0x00#8, 0x00#8, 0x80#8] ∧ votedBytes (.value (-1000)) = [0x18#8, 0xFC#8, 0xFF#8] := by decide

/-! ## States that meet the hypotheses of the statements: stream 3 is the stream at work -/

def cfgT (n : LaneCount) : StreamConfig :=
  { laneCount := n, laneFormat := .l24, laneOrder := .little, outputFormat := .l16, outputOrder := .big }

/-- A profile with every field at a bound of its range or held as written. -/
def profT : Profile :=
  { disputeTol := 65535, retireLimit := 0, perfShift := 4, linePeriod := 4096, lineShift := 16, spliceHumReset := 2
    clickFactor := 8, clickFloor := 0, noiseMin := 65535, guard := 3, repairMax := 96, spliceWidth := 16
    splitShift := 6, envShift := 10, refMult := 64, gainFloor := 256, hissInitial := 8388607, hissMin := 8388607
    hissMax := 8388607 }

def ctxT (n : LaneCount) : SignalContext :=
  freshContext (cfgT n) profT true

def hdrT (markCount profileAddr : Nat) : Header :=
  { state := 1, notify := true, last := false, freshLanes := true, resetHum := true, protectAll := false
    sequence := 0xFFFFFFFF#32, count := 256, lane0 := 4, lane1 := 8, lane2 := 12, marksAddr := 64
    markCount := markCount, logCapacity := 4096, logAddr := 4, outputAddr := 4, profileAddr := profileAddr, link := 128 }

/-- A span of the list. -/
def takenT (tid : Nat) (start : Option Nat) (slot : Option Bool) : Taken :=
  { tid := tid, addr := 4096 * tid, header := hdrT 0 0, marks := [], profile := none, expBefore := some 0#32
    start := start, slot := slot, staged := 0, processed := 0, final := none, givingBack := false }

def streamT (st : StreamState) (taken : List Taken) (wait : WaitTarget) : Stream :=
  { Stream.closed with
    state := st, ctx := some (ctxT .one), position := .span 0x1000, progressAddr := some 64, taken := taken
    chain := { Chain.empty with wait := wait } }

def stateT (x : Stream) : State :=
  { State.reset with enable := true }.setStream 3 x

/-- A stream whose anchor reads FINISHED. -/
def anchoredT (st : StreamState) (taken : List Taken) : Stream :=
  { streamT st taken .none with
    chain := { Chain.empty with anchor := some { addr := 64, sequence := 1, link := 128, finished := true } } }

/-- A state of the part with a command PENDING for stream 3. -/
def pendingT (code : BitVec 3) (x : Stream) : State :=
  { stateT x with cmd := { stream := 3, code := code, skip := true, result := .pending, tag := 0 } }

def fetchT (p : FetchPhase) (x : Stream) : State :=
  { stateT x with fetch := some { stream := 3, phase := p } }

/-- A write of stream 3 under way. -/
def issuedT (tag : WriteTag) (s : State) : State :=
  { s with issued := [{ stream := 3, write := { addr := 4096, bytes := [4#8, 0#8, 0#8, 0#8], tag := tag } }] }

/-- A span header as host memory holds it: sequence, sample count, flags and state word as given. -/
def headerT (word flags sequence count lane0 : Nat) : List Byte :=
  leBytes 4 word ++ leBytes 4 flags ++ leBytes 4 sequence ++ leBytes 4 count ++ leBytes 8 lane0 ++ leBytes 8 4 ++
  leBytes 8 4 ++ leBytes 8 0 ++ leBytes 4 0 ++ leBytes 4 0 ++ leBytes 8 0 ++ leBytes 8 4 ++ leBytes 8 0 ++ leBytes 8 0 ++
  leBytes 40 0

theorem test_header_fields : (headerT 1 2 7 1 4).length = 128 ∧ (parseHeader (headerT 1 2 7 1 4)).sequence = 7#32 ∧
    (parseHeader (headerT 1 2 7 1 4)).last = true ∧ (parseHeader (headerT 1 2 7 1 4)).outputAddr = 4 ∧
    headerValid .one (parseHeader (headerT 1 2 7 1 4)) = true := by decide +kernel

/-- A reel table entry as host memory holds it: lane count, head and progress address as given. -/
def entryT (lanes head progress : Nat) : List Byte :=
  leBytes 1 lanes ++ leBytes 7 0x01000101 ++ leBytes 8 head ++ leBytes 8 64 ++ leBytes 8 progress ++ leBytes 32 0

theorem witness_StepRunsFrontCommand :
    { State.reset with pending := [.blockEnd, .fetchGrant] }.pending = .blockEnd :: [.fetchGrant] ∧
      State.reset.pending = [] :=
  by decide

theorem witness_CmdWriteJudged_dropped :
    cmdWritten (.cmdUndefined .seven 15#4 true 7#16) = some (15#4, 7#3, true, 7#16) ∧
      (pendingT 1#3 (streamT .running [] .none)).cmd.result = .pending := by decide

theorem witness_CmdWriteJudged_taken :
    cmdWritten (.cmdOpen 11#4 false 0#16) = some (11#4, 1#3, false, 0#16) ∧ State.reset.cmd.result ≠ .pending :=
  by decide

theorem witness_CauseSignalLatchesOnce :
    latched { State.reset with evlatch := 0b10000#5 }.evlatch .deviceFault = true ∧
      latched { State.reset with evlatch := 0b01111#5 }.evlatch .deviceFault = false := by decide

theorem witness_RegisterWritesTakeEffect :
    State.reset.enable = false ∧ 0x24 ≤ (0x24#6).toNat ∧ 0x24 ≤ (0x3F#6).toNat ∧ (0x0F#6).toNat % 4 ≠ 0 ∧ 3 < 4 := by
  decide

/-- A CMD register with every field at its greatest value (table of 10.1), and the last byte of the window. -/
theorem test_cmd_read : readRegister { State.reset with
      cmd := { stream := 15, code := 7, skip := true, result := .refusedDisabled, tag := 0xFFFF } } 0x18 = 0xFFFF06FF#32 ∧
    (3 : Nat) = (match Cause.laneChange with
      | .spanNotify => 0 | .attention => 1 | .stopped => 2 | .laneChange => 3 | .deviceFault => 4) ∧ 63 < 64 := by decide

theorem witness_RegistersKeptEveryStep_step :
    ∃ t, step { State.reset with pending := [.registerWrite 0x0C#6 4 0x10000#32] } = .next t ∧ t.polliv = 1#16 :=
  ⟨_, rfl, rfl⟩

theorem witness_RegistersKeptEveryStep_invariants :
    IntxFollows { State.reset with enable := true } ∧ RegistersHeld { State.reset with enable := true } := by
  refine ⟨⟨fun h => absurd h (by decide), ?_⟩, by decide, by decide⟩
  rintro ⟨_, c, h, _⟩
  cases c <;> exact absurd h (by decide)

theorem witness_RegisterOwners :
    Instr.wellFormed (.enable true) = true ∧ isReset (.enable true) = false ∧
      ∃ t, exec (.enable true) State.reset = .next t := ⟨by decide, by decide, _, rfl⟩

theorem witness_TagChangesOnlyAtRest_reset :
    Instr.wellFormed (.deviceReset .powerOn) = true ∧ isReset (.deviceReset .powerOn) = true ∧
      ∃ t, exec (.deviceReset .powerOn) (stateT (streamT .stopped [] .none)) = .next t := ⟨by decide, by decide, _, rfl⟩

theorem witness_TagChangesOnlyAtRest_rest :
    isReset .commandDispatch = false ∧
      ∃ t, exec .commandDispatch (pendingT 2#3 (streamT .awaitLink [] .none)) = .next t ∧
      (t.stream 3).state = .stopped ∧ (t.stream 3).tag = 1#16 :=
  ⟨by decide, _, rfl, by decide +kernel, by decide +kernel⟩

theorem witness_TransitionsRecorded :
    Instr.wellFormed .commandDispatch = true ∧ isReset .commandDispatch = false ∧
      ∃ t, exec .commandDispatch (pendingT 2#3 (streamT .awaitLink [] .none)) = .next t ∧
      (t.stream 3).state ≠ ((pendingT 2#3 (streamT .awaitLink [] .none)).stream 3).state ∧
      unopened (t.stream 3).state = false ∧ (t.stream 3).progressAddr = some 64 :=
  ⟨by decide, by decide, _, rfl, by decide +kernel, by decide +kernel, by decide +kernel⟩

theorem witness_CommandJudgement_refused :
    Dispatches (pendingT 4#3 (streamT .running [] .none)) 3 4#3 ∧
      judge 4#3 0#16 (streamT .running [] .none) ≠ .accepted :=
  ⟨⟨by decide, by decide, by decide, by decide⟩, by decide⟩

theorem witness_CommandJudgement_owed :
    (pendingT 2#3 { streamT .running [] .none with owed := [.running] }).cmd.result = .pending ∧
      ((pendingT 2#3 { streamT .running [] .none with owed := [.running] }).stream 3).owed ≠ [] := by decide

/-- A rollback has begun with a write still queued (R185), and one whose block is still in progress has not. -/
theorem witness_CommandJudgement_rolling_back :
    (pendingT 5#3 { streamT .aborting [] .none with queue := [stateWrite 64 1 .progress] }).cmd.result = .pending ∧
      InTransition (pendingT 5#3 { streamT .aborting [] .none with queue := [stateWrite 64 1 .progress] }) 3 ∧
      ¬ InTransition { pendingT 5#3 (streamT .aborting [] .none) with
        engine := some { stream := 3, laneChanges := 0 } } 3 := by decide

/-- 10.3, R185: CLOSE written while the rollback waits for its writes stays PENDING; while a block is in progress it is
refused. -/
theorem test_close_waits_for_the_rollback :
    (match exec .commandDispatch (pendingT 5#3 { streamT .aborting [] .none with queue := [stateWrite 64 1 .progress] }) with
      | .next t => t.cmd.result = .pending
      | _ => False) ∧
    (match exec .commandDispatch { pendingT 5#3 (streamT .aborting [] .none) with
        engine := some { stream := 3, laneChanges := 0 } } with
      | .next t => t.cmd.result = .refusedState
      | _ => False) := ⟨rfl, rfl⟩

theorem witness_OpenAbortAndResumeAccepted_open :
    Dispatches (pendingT 1#3 Stream.closed) 3 1#3 ∧ ((pendingT 1#3 Stream.closed).stream 3).state = .closed :=
  ⟨⟨by decide, by decide, by decide, by decide⟩, by decide⟩

theorem witness_StopAccepted_at_once :
    Dispatches (pendingT 2#3 (streamT .awaitLink [] .none)) 3 2#3 ∧
      ((pendingT 2#3 (streamT .awaitLink [] .none)).stream 3).state = .awaitLink ∧
      ((pendingT 2#3 (streamT .awaitLink [] .none)).stream 3).taken = [] ∧
      taking (pendingT 2#3 (streamT .awaitLink [] .none)) 3 = false :=
  ⟨⟨by decide, by decide, by decide, by decide⟩, by decide, by decide, by decide⟩

theorem witness_StopAccepted_stopping :
    Dispatches (pendingT 2#3 (streamT .running [takenT 1 none none] .none)) 3 2#3 ∧
      ((pendingT 2#3 (streamT .running [takenT 1 none none] .none)).stream 3).state = .running ∧
      ((pendingT 2#3 (streamT .running [takenT 1 none none] .none)).stream 3).taken ≠ [] :=
  ⟨⟨by decide, by decide, by decide, by decide⟩, by decide, by decide⟩

theorem witness_StopAccepted_await :
    Dispatches (pendingT 2#3 (streamT .awaitLink [takenT 1 (some 0) (some false)] .none)) 3 2#3 ∧
      ((pendingT 2#3 (streamT .awaitLink [takenT 1 (some 0) (some false)] .none)).stream 3).state = .awaitLink ∧
      ((pendingT 2#3 (streamT .awaitLink [takenT 1 (some 0) (some false)] .none)).stream 3).taken ≠ [] :=
  ⟨⟨by decide, by decide, by decide, by decide⟩, by decide, by decide⟩

theorem witness_StopAccepted_empty :
    Dispatches (pendingT 2#3 (streamT .running [] .none)) 3 2#3 ∧
      ((pendingT 2#3 (streamT .running [] .none)).stream 3).state = .running ∧
      ((pendingT 2#3 (streamT .running [] .none)).stream 3).taken = [] ∧
      serving (pendingT 2#3 (streamT .running [] .none)) 3 = false ∧
      fetching (pendingT 2#3 (streamT .running [] .none)) 3 = false :=
  ⟨⟨by decide, by decide, by decide, by decide⟩, by decide, by decide, by decide, by decide⟩

/-- A STOP while a lane read of the stream is in progress. -/
theorem witness_StopAccepted_fetching :
    Dispatches { pendingT 2#3 (streamT .running [takenT 1 none none] .none) with
      fetch := some { stream := 3, phase := .lane 1 0 256 [] } } 3 2#3 ∧
      fetching { pendingT 2#3 (streamT .running [takenT 1 none none] .none) with
        fetch := some { stream := 3, phase := .lane 1 0 256 [] } } 3 = true :=
  ⟨⟨by decide, by decide, by decide, by decide⟩, by decide⟩

/-- A STOP while a wait read of the stream, or of another one, is in progress. -/
theorem witness_StopAccepted_wait_read :
    Dispatches { pendingT 2#3 (streamT .awaitLink [] .link) with
        fetch := some { stream := 3, phase := .wait .link 64 false false } } 3 2#3 ∧
      taking { pendingT 2#3 (streamT .awaitLink [] .link) with
        fetch := some { stream := 3, phase := .wait .link 64 false false } } 3 = false ∧
      (∀ target a whole stale, (some { stream := 4, phase := .wait .link 64 false false } : Option FetchTxn) ≠
        some { stream := 3, phase := .wait target a whole stale }) :=
  ⟨⟨by decide, by decide, by decide, by decide⟩, by decide, fun _ _ _ _ h => by cases h⟩

/-- R173, log entry 17: the STOP marks the stream's wait read. -/
theorem test_stop_marks_the_wait_read :
    (match exec .commandDispatch { pendingT 2#3 (streamT .awaitLink [] .link) with
        fetch := some { stream := 3, phase := .wait .link 64 false false } } with
      | .next t => t.fetch = some { stream := 3, phase := .wait .link 64 false true } ∧ (t.stream 3).state = .stopped
      | _ => False) := ⟨rfl, rfl⟩

def finishT (tid : Nat) : Write :=
  { addr := 4096 * tid, bytes := [], tag := .finish tid false }

/-- A begun span 0 whose state word is queued behind another's, and a span 1 to give back. -/
theorem witness_StopGivesBackUnbegun :
    [takenT 0 (some 0) (some false), takenT 1 none none].filter (fun v => decide (v.start = none) && !v.givingBack) =
      takenT 1 none none :: [] ∧
      ([takenT 0 (some 0) (some false), takenT 1 none none].filter hasBegun).getLast? =
        some (takenT 0 (some 0) (some false)) ∧
      (finishT 9).tag ≠ .finish (takenT 0 (some 0) (some false)).tid false ∧
      (finishT 9).tag ≠ .finish (takenT 0 (some 0) (some false)).tid true ∧
      (finishT 0).tag = .finish (takenT 0 (some 0) (some false)).tid false := by decide

/-- Staged blocks of a span that has not begun, of a begun one, and of one not in the list. -/
theorem witness_StopGivesBackUnbegun_staging :
    findTaken (streamT .stopping [takenT 0 (some 0) (some false), takenT 1 none none] .none) 1 = some (takenT 1 none none) ∧
      (takenT 1 none none).start = none ∧
      findTaken (streamT .stopping [takenT 0 (some 0) (some false), takenT 1 none none] .none) 0 =
        some (takenT 0 (some 0) (some false)) ∧ (takenT 0 (some 0) (some false)).start ≠ none ∧
      findTaken (streamT .stopping [takenT 0 (some 0) (some false), takenT 1 none none] .none) 2 = none := by decide

theorem witness_OpenAbortAndResumeAccepted_abort :
    Dispatches (pendingT 3#3 (streamT .stopping [takenT 1 (some 0) (some false)] .none)) 3 3#3 ∧
      ((pendingT 3#3 (streamT .stopping [takenT 1 (some 0) (some false)] .none)).stream 3).state = .stopping :=
  ⟨⟨by decide, by decide, by decide, by decide⟩, by decide⟩

theorem witness_OpenAbortAndResumeAccepted_resume :
    Dispatches (pendingT 4#3 (streamT .halted [] .none)) 3 4#3 ∧
      ((pendingT 4#3 (streamT .halted [] .none)).stream 3).state = .halted ∧
      (pendingT 4#3 (streamT .halted [] .none)).cmd.tag = ((pendingT 4#3 (streamT .halted [] .none)).stream 3).tag :=
  ⟨⟨by decide, by decide, by decide, by decide⟩, by decide, by decide⟩

/-- A RESUME at the FINISHED anchor of a stop, and one at a span address. -/
theorem witness_OpenAbortAndResumeAccepted_resume_at_anchor :
    Dispatches (pendingT 4#3 { anchoredT .stopped [] with position := .anchor 64 }) 3 4#3 ∧
      ((pendingT 4#3 { anchoredT .stopped [] with position := .anchor 64 }).stream 3).chain.anchor =
        some { addr := 64, sequence := 1, link := 128, finished := true } ∧
      (∀ b, (streamT .halted [] .none).position ≠ .anchor b) :=
  ⟨⟨by decide, by decide, by decide, by decide⟩, by decide, fun _ h => nomatch h⟩

theorem witness_CloseAccepted :
    Dispatches (pendingT 5#3 (streamT .stopped [] .none)) 3 5#3 ∧
      ((pendingT 5#3 (streamT .stopped [] .none)).stream 3).state = .stopped :=
  ⟨⟨by decide, by decide, by decide, by decide⟩, by decide⟩

/-- A CLOSE with a FINISHED anchor, and one with none; both streams have a progress address. -/
theorem witness_CloseAccepted_anchor :
    Dispatches (pendingT 5#3 (anchoredT .stopped [])) 3 5#3 ∧
      waitReading (pendingT 5#3 (anchoredT .stopped [])) 3 = false ∧
      ((pendingT 5#3 (anchoredT .stopped [])).stream 3).chain.anchor =
        some { addr := 64, sequence := 1, link := 128, finished := true } ∧
      (streamT .stopped [] .none).chain.anchor = none ∧ (streamT .stopped [] .none).progressAddr = some 64 :=
  ⟨⟨by decide, by decide, by decide, by decide⟩, by decide, by decide, by decide, by decide⟩

/-- A CLOSE while a link wait read that a STOP left is in progress. -/
theorem witness_CloseAccepted_reading :
    Dispatches { pendingT 5#3 (streamT .stopped [] .none) with
      fetch := some { stream := 3, phase := .wait .link 64 false true } } 3 5#3 ∧
      waitReading { pendingT 5#3 (streamT .stopped [] .none) with
        fetch := some { stream := 3, phase := .wait .link 64 false true } } 3 = true ∧
      waitReading (pendingT 5#3 (streamT .stopped [] .none)) 3 = false :=
  ⟨⟨by decide, by decide, by decide, by decide⟩, by decide, by decide⟩

theorem witness_PollRereadsAtOnce :
    Dispatches (pendingT 6#3 (streamT .awaitLink [] .link)) 3 6#3 ∧
      ((pendingT 6#3 (streamT .awaitLink [] .link)).stream 3).state = .awaitLink ∧
      ((pendingT 6#3 (streamT .awaitLink [] .link)).stream 3).state ≠ .opening :=
  ⟨⟨by decide, by decide, by decide, by decide⟩, by decide, by decide⟩

theorem witness_PollRereadsAtOnce_refused :
    Dispatches (pendingT 6#3 { Stream.closed with state := .opening }) 3 6#3 ∧
      ((pendingT 6#3 { Stream.closed with state := .opening }).stream 3).state = .opening :=
  ⟨⟨by decide, by decide, by decide, by decide⟩, by decide⟩

theorem witness_WaitReadsAndTimers_timer :
    ((stateT { streamT .awaitLink [] .link with timer := some 65535 }).stream 3).timer ≠ none ∧
      (State.reset.stream 3).timer = none := by decide

theorem witness_StreamsHoldEveryStep :
    StreamsHold (stateT (streamT .running [takenT 1 none none] .none)) ∧
      ∃ t, step (stateT (streamT .running [takenT 1 none none] .none)) = .next t := by
  refine ⟨⟨?_, fun _ h => nomatch h⟩, _, rfl⟩
  unfold StreamHolds
  decide +kernel

theorem witness_OneStreamPerCommand :
    Instr.wellFormed .commandDispatch = true ∧ isReset .commandDispatch = false ∧
      ∃ t, exec .commandDispatch (pendingT 1#3 Stream.closed) = .next t ∧ (t.stream 3).state = .opening :=
  ⟨by decide, by decide, _, rfl, by decide +kernel⟩

theorem witness_OrderedWritesAloneEveryStep :
    OrderedAlone (issuedT .active State.reset) ∧ ∃ t, step (issuedT .active State.reset) = .next t := by
  refine ⟨fun k => Or.inr ?_, _, rfl⟩
  revert k
  decide +kernel

theorem witness_ArbitersGrantRoundRobin_fetch :
    (stateT (streamT .running [] .none)).enable = true ∧ (stateT (streamT .running [] .none)).fetch = none ∧
      requests (stateT (streamT .running [] .none)) 3 = true ∧ (∀ j, requests State.reset j = false) :=
  ⟨by decide, by decide, by decide +kernel, by decide +kernel⟩

theorem witness_ArbitersGrantRoundRobin_engine :
    ready (stateT { streamT .running [takenT 1 none none] .none with
        staging := some { tid := 1, block := 0, count := 256, lanes := [none] } }) 3 = true ∧
      (∀ j, ready State.reset j = false) := ⟨by decide +kernel, by decide +kernel⟩

/-- A STOPPING stream whose begun span has been processed whole, with its stop flush due. -/
def flushT : Stream :=
  streamT .stopping [{ takenT 1 (some 0) (some false) with processed := 1 }] .none

theorem witness_ArbitersGrantRoundRobin_flush :
    firstAfter (stateT flushT).engineLast (ready (stateT flushT)) = some 3 ∧ blockReady flushT = false ∧
      stoppingReady flushT = false ∧
      newestBegun flushT = some { takenT 1 (some 0) (some false) with processed := 1 } ∧
      flushT.ctx = some (ctxT .one) := by decide +kernel

theorem witness_FetchGrantStartsReads_take :
    firstAfter (stateT (streamT .running [] .none)).fetchLast (requests (stateT (streamT .running [] .none))) = some 3 ∧
      needsOpenRead ((stateT (streamT .running [] .none)).stream 3) = false ∧
      needsLaneRead ((stateT (streamT .running [] .none)).stream 3) = false ∧ 0x1000 % 64 = 0 := by decide +kernel

theorem witness_FetchGrantStartsReads_wait :
    firstAfter 11 (requests (stateT { streamT .awaitLink [] .state with readDue := true })) = some 3 ∧
      ((stateT { streamT .awaitLink [] .state with readDue := true }).stream 3).chain.wait ≠ .none := by decide +kernel

theorem witness_FetchGrantStartsReads_link :
    firstAfter 11 (requests (stateT { streamT .running [] .none with position := .anchor 64 })) = some 3 ∧
      anchorLink ((stateT { streamT .running [] .none with position := .anchor 64 }).stream 3) = 0 := by decide +kernel

/-- A link wait on the anchor that the skip request names (R154). -/
theorem witness_FetchGrantStartsReads_link_at_skip :
    firstAfter 11 (requests (stateT { streamT .running [] .none with position := .anchor 64, skip := some 64 })) = some 3 ∧
      (phaseReads (.wait .link 64 true false)) = [{ addr := 64, len := 128 }] := by decide +kernel

theorem witness_FetchGrantStartsReads_lane :
    firstAfter 11 (requests (stateT (streamT .running [takenT 1 none none] .none))) = some 3 ∧
      needsLaneRead ((stateT (streamT .running [takenT 1 none none] .none)).stream 3) = true ∧
      nextBlock ((stateT (streamT .running [takenT 1 none none] .none)).stream 3) = some (takenT 1 none none) :=
  by decide +kernel

theorem witness_FetchGrantStartsReads_open :
    firstAfter 11 (requests { stateT { Stream.closed with state := .opening, openDue := true } with
        tbaseLo := 64#32 }) = some 3 ∧
      tableBase { State.reset with tbaseLo := 64#32 } ≠ 0 := by decide +kernel

theorem witness_FetchGrantStartsReads_no_table :
    firstAfter 11 (requests (stateT { Stream.closed with state := .opening, openDue := true })) = some 3 ∧
      tableBase (stateT { Stream.closed with state := .opening, openDue := true }) = 0 := by decide +kernel

theorem witness_FetchGrantStartsReads_misaligned :
    firstAfter 11 (requests (stateT { streamT .running [] .none with position := .span 65 })) = some 3 ∧ 65 % 64 ≠ 0 := by
  decide +kernel

theorem witness_FetchGrantStartsReads_stopping :
    firstAfter 11 (requests (stateT (streamT .stopping [takenT 1 (some 0) (some false)] .none))) = some 3 ∧
      needsLaneRead (streamT .stopping [takenT 1 (some 0) (some false)] .none) = true := by decide +kernel

/-- The anchor's snapshot holds a nonzero next-link. -/
theorem witness_FetchGrantStartsReads_follow :
    firstAfter 11 (requests (stateT { streamT .running [] .none with
        position := .anchor 64
        chain := { Chain.empty with anchor := some { addr := 64, sequence := 1, link := 128, finished := true } } })) =
      some 3 ∧
      anchorLink { streamT .running [] .none with
        position := .anchor 64
        chain := { Chain.empty with anchor := some { addr := 64, sequence := 1, link := 128, finished := true } } } = 128 ∧
      128 % 64 = 0 := by decide +kernel

/-- The anchor's snapshot holds a next-link that is not 64-byte aligned. -/
theorem witness_FetchGrantStartsReads_follow_misaligned :
    firstAfter 11 (requests (stateT { streamT .running [] .none with
        position := .anchor 64
        chain := { Chain.empty with anchor := some { addr := 64, sequence := 1, link := 129, finished := true } } })) =
      some 3 ∧ 129 % 64 ≠ 0 := by decide +kernel

theorem witness_LaneReadStagesBlock :
    (fetchT (.lane 1 0 256 [{ addr := 4, len := 4 }]) (streamT .running [takenT 1 none none] .none)).fetch =
      some { stream := 3, phase := .lane 1 0 256 [{ addr := 4, len := 4 }] } ∧
      findTaken (streamT .running [takenT 1 none none] .none) 1 = some (takenT 1 none none) ∧
      ([some [1#8, 2#8, 3#8, 4#8]] : List ReadResult).length = [({ addr := 4, len := 4 } : ReadReq)].length :=
  ⟨rfl, by decide, rfl⟩

/-- A lane read whose span is no longer in the list, of a stream in STOPPING and of one in ABORTING. -/
theorem witness_LaneReadStagesBlock_discarded :
    findTaken (streamT .stopping [takenT 2 none none] .none) 1 = none ∧
      serving (fetchT (.lane 1 0 256 []) (streamT .stopping [takenT 2 none none] .none)) 3 = false ∧
      (streamT .aborting [takenT 1 none none] .none).state = .aborting := by decide +kernel

theorem witness_LaneReadStagesBlock_stopping :
    (streamT .stopping [takenT 1 (some 0) (some true), takenT 2 none none] .none).state = .stopping ∧
      findTaken (streamT .stopping [takenT 1 (some 0) (some true), takenT 2 none none] .none) 1 =
        some (takenT 1 (some 0) (some true)) ∧
      (takenT 1 (some 0) (some true)).start ≠ none ∧
      findTaken (streamT .stopping [takenT 1 (some 0) (some true), takenT 2 none none] .none) 2 =
        some (takenT 2 none none) ∧ (takenT 2 none none).start = none := by decide

/-- A sample count of 255 without LAST fails; 256 passes below. -/
theorem witness_TakeFailsAtHeader_invalid :
    (headerT 1 0 7 255 4).length = 128 ∧ (parseHeader (headerT 1 0 7 255 4)).state = 1 ∧
      headerValid (streamLanes (streamT .running [] .none)) (parseHeader (headerT 1 0 7 255 4)) = false :=
  by decide +kernel

theorem witness_TakeFailsAtHeader_sequence :
    headerValid .one (parseHeader (headerT 1 0 7 256 4)) = true ∧ (some 0#32 : Option Seq) = some 0#32 ∧
      (0#32 : Seq) ≠ (parseHeader (headerT 1 0 7 256 4)).sequence ∧ recordsFailure .awaitLink = true :=
  by decide +kernel

theorem witness_TakeGoesOnAfterReads_posted :
    (fetchT (.header 64) (streamT .running [] .none)).fetch = some { stream := 3, phase := .header 64 } ∧
      (headerT 1 0 7 65536 4).length = 128 ∧ (parseHeader (headerT 1 0 7 65536 4)).state = 1 ∧
      headerValid (streamLanes (streamT .running [] .none)) (parseHeader (headerT 1 0 7 65536 4)) = true ∧
      (streamT .running [] .none).chain.expected = none :=
  ⟨rfl, by decide +kernel, by decide +kernel, by decide +kernel, rfl⟩

theorem witness_TakeGoesOnAfterReads_not_posted :
    (headerT 5 0 7 256 4).length = 128 ∧ (parseHeader (headerT 5 0 7 256 4)).state ≠ 1 ∧
      (streamT .awaitLink [] .none).state = .awaitLink ∧ (streamT .awaitLink [] .none).skip ≠ some 64 :=
  by decide +kernel

theorem witness_TakeGoesOnAfterReads_marks :
    (fetchT (.marks 64 (hdrT 1 0)) (streamT .stopping [] .none)).fetch = some { stream := 3, phase := .marks 64 (hdrT 1 0) } ∧
      (List.replicate 8 0xFF#8).length = 8 * (hdrT 1 0).markCount ∧
      recordsFailure ((fetchT (.marks 64 (hdrT 1 0)) (streamT .stopping [] .none)).stream 3).state = true :=
  ⟨rfl, by decide, by decide⟩

theorem witness_TakeGoesOnAfterReads_profile :
    (fetchT (.profile 64 (hdrT 0 64) []) (streamT .running [] .none)).fetch =
      some { stream := 3, phase := .profile 64 (hdrT 0 64) [] } ∧ (List.replicate 64 0#8).length = 64 ∧
      recordsFailure ((fetchT (.profile 64 (hdrT 0 64) []) (streamT .running [] .none)).stream 3).state = true :=
  ⟨rfl, by decide, by decide⟩

/-- A marks read and a profile read of a take whose stream has been aborted or halted: a failed read records nothing. -/
theorem witness_TakeGoesOnAfterReads_discarded :
    (fetchT (.marks 64 (hdrT 1 0)) (streamT .aborting [] .none)).fetch = some { stream := 3, phase := .marks 64 (hdrT 1 0) } ∧
      (fetchT (.profile 64 (hdrT 0 64) []) (streamT .halting [] .none)).fetch =
        some { stream := 3, phase := .profile 64 (hdrT 0 64) [] } ∧
      recordsFailure (streamT .aborting [] .none).state = false ∧ recordsFailure (streamT .halting [] .none).state = false :=
  ⟨rfl, rfl, rfl, rfl⟩

/-- In STOPPING a state word of the newest begun span stands in the queue. -/
theorem witness_TakeGoesOnAfterReads_ahead :
    newestFinish (streamT .stopping [takenT 1 (some 0) (some true)] .none) (finishT 1) = true ∧
      newestFinish (streamT .stopping [takenT 1 (some 0) (some true)] .none) (finishT 0) = false := by decide

/-- The ACTIVE word of a take in STOPPING stands before the state word of the newest begun span, and in RUNNING at the end. -/
theorem witness_TakeGoesOnAfterReads_active :
    ActivePlace { streamT .stopping [takenT 1 (some 0) (some true)] .none with queue := [finishT 0, finishT 1] }
        [finishT 0] [finishT 1] ∧
      ActivePlace { streamT .running [takenT 1 (some 0) (some true)] .none with queue := [finishT 1] } [finishT 1] [] ∧
      (parseHeader (headerT 1 0 7 65536 4)).markCount = 0 ∧ (parseHeader (headerT 1 0 7 65536 4)).profileAddr = 0 ∧
      (hdrT 1 0).profileAddr = 0 := by
  refine ⟨⟨rfl, fun h => absurd rfl h, fun _ => ⟨by decide, Or.inr ⟨_, _, rfl, by decide⟩⟩⟩,
    ⟨rfl, fun _ => rfl, fun h => nomatch h⟩, by decide +kernel, by decide +kernel, rfl⟩

/-- A header that does not read POSTED, of a stream that a STOP or an ABORT has taken from its chain. -/
theorem witness_TakeGoesOnAfterReads_left :
    (fetchT (.header 64) (streamT .stopping [] .none)).fetch = some { stream := 3, phase := .header 64 } ∧
      (headerT 0 0 7 256 4).length = 128 ∧ (parseHeader (headerT 0 0 7 256 4)).state ≠ 1 ∧
      serving (fetchT (.header 64) (streamT .stopping [] .none)) 3 = false ∧ (streamT .stopping [] .none).taken = [] ∧
      (streamT .stopping [takenT 1 none none] .none).taken ≠ [] ∧ (streamT .aborting [] .none).state ≠ .stopping :=
  ⟨rfl, by decide +kernel⟩

theorem witness_WaitReadsAndTimers_read :
    (fetchT (.wait .link 64 false false) (streamT .awaitLink [] .link)).fetch =
      some { stream := 3, phase := .wait .link 64 false false } ∧
      ((fetchT (.wait .link 64 false false) (streamT .awaitLink [] .link)).stream 3).state = .awaitLink ∧
      leNat [0#8, 0#8, 0#8, 0#8, 0#8, 0#8, 0#8, 0#8] = 0 ∧ leNat [2#8, 0#8, 0#8, 0#8] ≠ 1 ∧
      leNat [1#8, 0#8, 0#8, 0#8] = 1 ∧ leNat [64#8, 0#8, 0#8, 0#8, 0#8, 0#8, 0#8, 0#8] = 64 ∧ 64 % 64 = 0 :=
  ⟨rfl, by decide, by decide, by decide, by decide, by decide, by decide⟩

theorem witness_WaitReadsAndTimers_misaligned :
    leNat [65#8, 0#8, 0#8, 0#8, 0#8, 0#8, 0#8, 0#8] = 65 ∧ 65 % 64 ≠ 0 ∧
      (∀ e ∈ (streamT .awaitLink [] .link).chain.bypass, e.preceding ≠ 64) := by decide

/-- A wait read that a STOP left behind, with nothing more to do, a span to give back, and after a RESUME; and of a stream that has
been closed with a FINISHED anchor. -/
theorem witness_WaitReadsAndTimers_stale :
    (fetchT (.wait .link 64 false true) (streamT .stopping [takenT 1 none none] .none)).fetch =
        some { stream := 3, phase := .wait .link 64 false true } ∧
      (streamT .stopping [takenT 1 none none] .none).state ≠ .closed ∧ (takenT 1 none none).start = none ∧
      (takenT 1 none none).givingBack = false ∧ (streamT .running [] .none).state ≠ .stopping ∧
      (anchoredT .closed []).state = .closed ∧
      (anchoredT .stopping []).chain.anchor = some { addr := 64, sequence := 1, link := 128, finished := true } ∧
      (anchoredT .stopping []).gaveBack = false ∧ (anchoredT .stopping []).owed = [] := ⟨rfl, by decide⟩

/-- R123, R173: the end of the last wait read of a STOPPING stream with an empty list is its entry to STOPPED. -/
theorem test_stale_wait_read_ends_the_stop :
    (match exec (.waitReadDone none) (fetchT (.wait .link 64 false true) (anchoredT .stopping [])) with
      | .next t => (t.stream 3).state = .stopped ∧ (t.stream 3).position = .anchor 64 ∧ t.fetch = none
      | _ => False) := ⟨rfl, rfl, rfl⟩

/-- The header of a span that failed, with the next-link given. -/
def failedHeaderT (link : Nat) : List Byte :=
  (headerT 5 0 7 256 4).take 80 ++ leBytes 8 link ++ leBytes 40 0

theorem witness_SkipBegins_header :
    (fetchT (.header 4096) { streamT .awaitLink [] .none with skip := some 4096 }).fetch =
      some { stream := 3, phase := .header 4096 } ∧
      ((fetchT (.header 4096) { streamT .awaitLink [] .none with skip := some 4096 }).stream 3).skip = some 4096 ∧
      (failedHeaderT 8192).length = 128 ∧ (parseHeader (failedHeaderT 8192)).state = 5 ∧
      (parseHeader (failedHeaderT 8192)).link ≠ 0 := ⟨rfl, by decide, by decide +kernel⟩

theorem witness_SkipBegins_wait :
    (fetchT (.wait .state 4096 true false) { streamT .running [] .state with skip := some 4096 }).fetch =
      some { stream := 3, phase := .wait .state 4096 true false } ∧
      (failedHeaderT 0).length = 128 ∧ (parseHeader (failedHeaderT 0)).state = 5 ∧ (parseHeader (failedHeaderT 0)).link = 0 ∧
      (headerT 1 0 7 256 4).length = 128 ∧ (parseHeader (headerT 1 0 7 256 4)).state = 1 ∧ 4096 % 64 = 0 :=
  ⟨rfl, by decide +kernel⟩

theorem witness_SkipBegins_link :
    (fetchT (.wait .link 4096 true false) { streamT .awaitLink [] .link with skip := some 4096 }).fetch =
      some { stream := 3, phase := .wait .link 4096 true false } ∧
      (failedHeaderT 0).length = 128 ∧ (parseHeader (failedHeaderT 0)).link = 0 ∧
      (failedHeaderT 8192).length = 128 ∧ (parseHeader (failedHeaderT 8192)).link ≠ 0 ∧
      (parseHeader (failedHeaderT 8192)).link % 64 = 0 ∧ (parseHeader (failedHeaderT 8193)).link % 64 ≠ 0 :=
  ⟨rfl, by decide +kernel⟩

theorem witness_BypassedLinkPassedOver :
    bypassOf { Chain.empty with bypass := [{ skipped := 64, sequence := 1, link := 128, preceding := 0 }] } 0 =
      some { skipped := 64, sequence := 1, link := 128, preceding := 0 } ∧ 128 % 64 = 0 ∧ 64 ≠ 192 ∧ 192 % 64 = 0 :=
  by decide

/-- A stream at an anchor with a bypass entry: the snapshot's link is the skipped span's. -/
def bypassedT (wait : WaitTarget) (link : Nat) : Stream :=
  { streamT .running [] .none with
    position := .anchor 4096
    chain := { Chain.empty with
      anchor := some { addr := 4096, sequence := 1, link := 64, finished := true }
      wait := wait
      bypass := [{ skipped := 64, sequence := 1, link := link, preceding := 4096 }] } }

theorem witness_BypassedLinkPassedOver_grant :
    firstAfter 11 (requests (stateT (bypassedT .none 128))) = some 3 ∧ needsOpenRead (bypassedT .none 128) = false ∧
      needsLaneRead (bypassedT .none 128) = false ∧ anchorLink (bypassedT .none 128) = 64 ∧
      bypassOf (bypassedT .none 129).chain 4096 = some { skipped := 64, sequence := 1, link := 129, preceding := 4096 } ∧
      129 % 64 ≠ 0 := by decide +kernel

theorem witness_BypassedLinkPassedOver_read :
    (fetchT (.wait .link 4096 false false) (bypassedT .link 128)).fetch =
      some { stream := 3, phase := .wait .link 4096 false false } ∧
      leNat [64#8, 0#8, 0#8, 0#8, 0#8, 0#8, 0#8, 0#8] = 64 ∧ leNat [192#8, 0#8, 0#8, 0#8, 0#8, 0#8, 0#8, 0#8] = 192 ∧
      (failedHeaderT 64).length = 128 ∧ (parseHeader (failedHeaderT 64)).link = 64 := ⟨rfl, by decide +kernel⟩

theorem witness_EntryReadJudged_good :
    (fetchT (.entry 64) Stream.closed).fetch = some { stream := 3, phase := .entry 64 } ∧ (entryT 3 4 64).length = 64 ∧
      fieldAt (entryT 3 4 64) 0 1 = 3 ∧ fieldAt (entryT 3 4 64) 1 1 ≤ 1 ∧ fieldAt (entryT 3 4 64) 2 1 ≤ 1 ∧
      fieldAt (entryT 3 4 64) 3 1 ≤ 1 ∧ fieldAt (entryT 3 4 64) 4 1 ≤ 1 ∧ fieldAt (entryT 3 4 64) 0x08 8 ≠ 0 ∧
      fieldAt (entryT 3 4 64) 0x10 8 % 64 = 0 ∧ fieldAt (entryT 3 4 64) 0x10 8 ≠ 0 ∧
      fieldAt (entryT 3 4 64) 0x18 8 ≠ 0 ∧ fieldAt (entryT 3 4 64) 0x18 8 % 64 = 0 := ⟨rfl, by decide +kernel⟩

theorem witness_EntryReadJudged_bad :
    (entryT 2 4 65).length = 64 ∧ fieldAt (entryT 2 4 65) 0 1 ≠ 1 ∧ fieldAt (entryT 2 4 65) 0 1 ≠ 3 ∧
      fieldAt (entryT 2 4 65) 0x18 8 % 64 ≠ 0 ∧ fieldAt (entryT 2 4 64) 0x18 8 % 64 = 0 := by decide +kernel

theorem witness_OpenProfileOpensStream :
    (fetchT (.openProfile { config := cfgT .one, head := 64, profileAddr := 64, progressAddr := 64 })
      { Stream.closed with state := .opening }).fetch =
        some { stream := 3, phase := .openProfile { config := cfgT .one, head := 64, profileAddr := 64, progressAddr := 64 } } ∧
      (List.replicate 64 0xFF#8).length = 64 := ⟨rfl, by decide⟩

theorem witness_SpanStart_context :
    (streamT .running [takenT 1 none none] .none).ctx = some (ctxT .one) ∧
      (streamT .running [takenT 1 none none] .none).slot0 = none ∧
      { streamT .running [takenT 1 none none] .none with slot0 := some { ctx := ctxT .one, span := 0 } }.slot0 ≠ none ∧
      (hdrT 0 0).freshLanes = true ∧ (hdrT 0 0).resetHum = true ∧ (ctxT .one).reelEnd = false ∧
      { ctxT .one with reelEnd := true }.reelEnd = true := ⟨rfl, rfl, by simp, rfl, rfl, rfl, rfl⟩

/-- A profile named within a reel, with another line period. -/
theorem witness_SpanStart_profile :
    { takenT 1 none none with profile := some { profT with linePeriod := 960 } }.profile =
      some { profT with linePeriod := 960 } ∧
      (limitProfile { profT with linePeriod := 960 }).linePeriod ≠ (ctxT .one).profile.linePeriod := by decide +kernel

/-- A span that names no profile and sets no flag, within a reel. -/
theorem witness_SpanStart_plain :
    { takenT 1 none none with header := { hdrT 0 0 with freshLanes := false, resetHum := false } }.profile = none ∧
      { hdrT 0 0 with freshLanes := false, resetHum := false }.freshLanes = false ∧
      { hdrT 0 0 with freshLanes := false, resetHum := false }.resetHum = false ∧ (ctxT .one).reelEnd = false := by decide

def blockT (block : Nat) : Staged :=
  { tid := 1, block := block, count := 256, lanes := [none] }

theorem witness_GrantedBlockRunsStages_begins :
    firstAfter 11 (ready (stateT { streamT .running [takenT 1 none none] .none with staging := some (blockT 0) })) = some 3 ∧
      blockReady { streamT .running [takenT 1 none none] .none with staging := some (blockT 0) } = true ∧
      findTaken { streamT .running [takenT 1 none none] .none with staging := some (blockT 0) } 1 =
        some (takenT 1 none none) := by decide +kernel

theorem witness_GrantedBlockRunsStages_goes_on :
    firstAfter 11 (ready (stateT { streamT .stopping [takenT 1 (some 0) (some false)] .none with
        staging := some (blockT 1), schedule := some (buildSchedule 0 2000 marksS) })) = some 3 ∧
      stoppingReady { streamT .stopping [takenT 1 (some 0) (some false)] .none with
        staging := some (blockT 1), schedule := some (buildSchedule 0 2000 marksS) } = true ∧
      (takenT 1 (some 0) (some false)).start = some 0 := by decide +kernel

theorem witness_GrantedBlockRunsStages_hand_over :
    liveSpan (streamT .running [takenT 1 (some 0) (some false)] .none) 0 = some (takenT 1 (some 0) (some false)) ∧
      liveSpan (streamT .running [] .none) 0 = none ∧ (cfgT .one).laneCount = .one ∧ (cfgT .three).laneCount = .three := by
  decide +kernel

/-- Lane reads of a block of two samples: one that failed and two that ended with the block's containers. -/
theorem witness_GrantedBlockRunsStages_rows :
    LaneFits (cfgT .three) 2 none ∧ LaneFits (cfgT .three) 2 (some [1#8, 0#8, 0#8, 0#8, 2#8, 0#8, 0#8, 0#8]) :=
  ⟨(fun _ h => nomatch h), (fun _ h => by cases h; rfl)⟩

/-- R2, R7: row 1 holds the second sample of lanes 0, 1 and 2, in that order. -/
theorem test_rows_by_lane :
    (blockRows (cfgT .three) 2 [some [1#8, 0#8, 0#8, 0#8, 2#8, 0#8, 0#8, 0#8], none,
      some [3#8, 0#8, 0#8, 0#8, 4#8, 0#8, 0#8, 0#8]])[1]? = some (.three (.value 2) (.void .fetch) (.value 4)) := by
  decide +kernel

def windowT (start nlast guard longest : Nat) (long : Bool) : Window :=
  { start := start, span := 0, nlast := nlast, quiet := 0, long := long, guard := guard, longest := longest
    left := none, content := emptyContent, tail := [] }

/-- The oldest span has not released its last sample, waits for its window, or is replayed with that window open. -/
theorem witness_GrantedBlockRunsStages_complete :
    (freshTally 0 256 1).thEnd = none ∧ { freshTally 0 256 1 with thEnd := some 0 }.thEnd ≠ none ∧
      (windowT 250 260 1 8 true).span = (freshTally 0 256 1).start ∧ (freshTally 0 256 1).start ∈ [0] ∧
      (freshTally 0 256 1).start ∉ ([] : List Nat) := by decide

theorem witness_LogEntryPlacedOrLost :
    [freshTally 0 256 1, { freshTally 256 256 1 with logWritten := 1 }].find? (fun u => decide (u.start = 0)) =
      some (freshTally 0 256 1) ∧ (freshTally 0 256 1).logWritten < (freshTally 0 256 1).capacity ∧
      { freshTally 256 256 1 with logWritten := 1 }.capacity ≤ { freshTally 256 256 1 with logWritten := 1 }.logWritten :=
  by decide

theorem witness_BlockEndActsByState :
    State.reset.engine = none ∧ { State.reset with engine := some { stream := 3, laneChanges := 1 } }.engine =
      some { stream := 3, laneChanges := 1 } ∧
      (stateT (streamT .running [] .none)).stream 3 = streamT .running [] .none ∧
      (stateT (streamT .halting [] .none)).stream 3 = streamT .halting [] .none :=
  ⟨rfl, rfl, by decide +kernel, by decide +kernel⟩

theorem witness_BlockEndActsByState_stopping :
    ((stateT (streamT .stopping [takenT 1 none none] .none)).stream 3).state = .stopping ∧
      fetching (stateT (streamT .stopping [takenT 1 none none] .none)) 3 = false ∧
      fetching (fetchT (.header 64) (streamT .stopping [] .none)) 3 = true := by decide +kernel

/-- A block without a lane change and a block with one; a stream with all its samples voted and no record owed, one with a block
to come, and one that has left RUNNING. -/
theorem witness_BlockEndActsByState_running :
    ({ stream := 3, laneChanges := 0 } : Serving).laneChanges = 0 ∧ 0 < ({ stream := 3, laneChanges := 1 } : Serving).laneChanges ∧
      (∀ u ∈ [{ takenT 1 (some 0) none with processed := 1 }], u.processed = (u.header.count + 1023) / 1024) ∧
      (∃ u ∈ [takenT 1 (some 0) none], u.processed ≠ (u.header.count + 1023) / 1024) ∧
      (streamT .running [] .none).owed = [] ∧ (streamT .running [] .none).progressAddr = some 64 ∧
      (streamT .aborting [] .none).state ≠ .running ∧ (streamT .aborting [] .none).state ≠ .stopping := by decide

theorem witness_RollbackRestoresAndRests :
    rollbackDue 3 (stateT (streamT .aborting [takenT 1 (some 0) (some false)] .none)) = true ∧
      rollbackDue 3 (stateT (streamT .halting [] .none)) = true ∧ rollbackDue 3 State.reset = false := by decide +kernel

/-- The restart checkpoint of the oldest begun span in slot 0, and in slot 1. -/
theorem witness_RollbackRestoresAndRests_slots :
    rollbackDue 3 (stateT { streamT .aborting [takenT 1 (some 0) (some false), takenT 2 (some 256) (some true)] .none with
        slot0 := some { ctx := ctxT .one, span := 4096 } }) = true ∧
      rollbackDue 3 (stateT { streamT .aborting [takenT 1 (some 0) (some true), takenT 2 (some 256) (some false)] .none with
        slot1 := some { ctx := ctxT .one, span := 4096 } }) = true ∧
      (takenT 1 (some 0) (some false)).slot = some false ∧ (takenT 1 (some 0) (some true)).slot = some true := by
  decide +kernel

theorem witness_RollbackRestoresAndRests_writes :
    (streamT .halting [] .none).halt = none ∧
      [takenT 0 (some 0) (some false), takenT 1 none none] = [takenT 0 (some 0) (some false)] ++ takenT 1 none none :: [] ∧
      (∀ u ∈ [takenT 0 (some 0) (some false)] ++ [], u.tid ≠ (takenT 1 none none).tid) := ⟨rfl, rfl, by decide⟩

/-- A begun span behind one that has not begun, and lists of none that has begun with a failed take or none. -/
theorem witness_RollbackRestoresAndRests_position :
    [takenT 0 none none, takenT 1 (some 0) (some false)] = [takenT 0 none none] ++ takenT 1 (some 0) (some false) :: [] ∧
      (∀ v ∈ [takenT 0 none none], v.start = none) ∧ (takenT 1 (some 0) (some false)).start ≠ none ∧
      rollbackDue 3 (stateT { streamT .halting [takenT 1 none none] .none with
        halt := some { addr := 64, code := .sequence, tid := none, echo := 0, expBefore := none } }) = true ∧
      rollbackDue 3 (stateT { streamT .halting [takenT 1 none none] .none with
        halt := some { addr := 64, code := .stateFault, tid := some 1, echo := 0, expBefore := none } }) = true ∧
      rollbackDue 3 (stateT (streamT .aborting [takenT 1 none none] .none)) = true := by decide +kernel

/-- A failing span with final tallies, one with tallies in the context, and one that never began. -/
theorem witness_RollbackRestoresAndRests_report :
    { takenT 1 (some 0) none with final := some (freshTally 0 256 1) }.final = some (freshTally 0 256 1) ∧
      (takenT 1 (some 0) none).final = none ∧
      ({ ctxT .one with tallies := [freshTally 0 256 1] }.tallies.find? fun u => decide (u.start = 0)) =
        some (freshTally 0 256 1) ∧ (takenT 1 none none).start = none := by decide +kernel

theorem witness_RollbackUndoesSpanStart :
    (takenT 1 none none).start = none ∧ (∀ u ∈ [takenT 2 none none], u.tid ≠ (takenT 1 none none).tid ∧
      u.start = none) ∧
      (streamT .running [takenT 1 none none, takenT 2 none none] .none).ctx = some (ctxT .one) := ⟨rfl, by decide, rfl⟩

/-- Two spans that begin one after the other, with slot 0 free first and with slot 1 free first. -/
theorem witness_RollbackUndoesSpanStart_two :
    (streamT .running [takenT 1 none none, takenT 2 none none] .none).slot0 = none ∧
      { streamT .running [takenT 1 none none, takenT 2 none none] .none with
        slot0 := some { ctx := ctxT .one, span := 64 } }.slot0 ≠ none ∧
      (takenT 2 none none).tid ≠ (takenT 1 none none).tid ∧
      (∀ v ∈ [takenT 3 none none], v.tid ≠ 1 ∧ v.tid ≠ 2 ∧ v.start = none) :=
  ⟨rfl, by simp, by decide, by decide⟩

theorem witness_TakeCompletesAtActiveWrite :
    (issuedT .active (fetchT (.active 4096 (hdrT 0 0) [] none) (streamT .awaitLink [] .none))).issued[0]? =
      some { stream := 3, write := { addr := 4096, bytes := [4#8, 0#8, 0#8, 0#8], tag := .active } } ∧
      (issuedT .active (fetchT (.active 4096 (hdrT 0 0) [] none) (streamT .awaitLink [] .none))).fetch =
        some { stream := 3, phase := .active 4096 (hdrT 0 0) [] none } ∧
      ((issuedT .active (fetchT (.active 4096 (hdrT 0 0) [] none) (streamT .awaitLink [] .none))).stream 3).state =
        .awaitLink := ⟨rfl, rfl, by decide⟩

theorem witness_TakeCompletesAtActiveWrite_anchor :
    (anchoredT .awaitLink []).chain.anchor = some { addr := 64, sequence := 1, link := 128, finished := true } ∧
      (anchoredT .stopping [takenT 1 (some 0) (some true)]).state = .stopping ∧
      serving (stateT (anchoredT .stopping [takenT 1 (some 0) (some true)])) 3 = false ∧
      (∀ v ∈ [takenT 1 (some 0) (some true)], v.start ≠ none ∨ v.givingBack = true) := by decide +kernel

theorem witness_SpanFinishesAtStateWord :
    (issuedT (.finish 1 true) (stateT (streamT .running [takenT 1 (some 0) (some true)] .none))).issued[0]? =
      some { stream := 3, write := { addr := 4096, bytes := [4#8, 0#8, 0#8, 0#8], tag := .finish 1 true } } ∧
      findTaken (streamT .running [takenT 1 (some 0) (some true)] .none) 1 = some (takenT 1 (some 0) (some true)) :=
  ⟨rfl, by decide⟩

def bypassT (preceding : Nat) : Chain :=
  { Chain.empty with bypass := [{ skipped := 64, sequence := 1, link := 128, preceding := preceding }] }

theorem witness_SpanFinishesAtStateWord_bypass :
    bypassOf (bypassT (takenT 1 (some 0) none).addr) (takenT 1 (some 0) none).addr =
      some { skipped := 64, sequence := 1, link := 128, preceding := (takenT 1 (some 0) none).addr } ∧
      takenBeyond (streamT .running [takenT 1 (some 0) none, takenT 2 none none] .none) 1 = true ∧
      takenBeyond (streamT .stopping [takenT 1 (some 0) none] .none) 1 = false ∧
      (∀ v ∈ (streamT .stopping [takenT 1 (some 0) none] .none).taken, v.tid = 1) ∧
      (streamT .stopping [takenT 1 (some 0) none] .none).gaveBack = false := by decide

/-- A RUNNING stream at its finishing span, which has not followed its link, and one whose position lies beyond it. -/
theorem witness_SpanFinishesAtStateWord_wait :
    { streamT .running [takenT 1 (some 0) none] .none with position := .anchor 4096, chain := bypassT 4096 }.position =
        .anchor (takenT 1 (some 0) none).addr ∧
      { streamT .running [takenT 1 (some 0) none] .none with position := .anchor 4096, chain := bypassT 4096 }.chain.wait =
        .none ∧
      (streamT .running [takenT 1 (some 0) none] .state).position ≠ .anchor (takenT 1 (some 0) none).addr := by decide

/-- The POSTED word of a stop's last span, of one of two spans, during a block, and after the stream has left STOPPING. -/
theorem witness_SpanFinishesAtStateWord_give_back :
    (issuedT (.giveBack 1) (stateT (streamT .stopping [takenT 1 none none] .none))).issued[0]? =
        some { stream := 3, write := { addr := 4096, bytes := [4#8, 0#8, 0#8, 0#8], tag := .giveBack 1 } } ∧
      (∀ v ∈ (streamT .stopping [takenT 1 none none] .none).taken, v.tid = 1) ∧
      serving (issuedT (.giveBack 1) (stateT (streamT .stopping [takenT 1 none none] .none))) 3 = false ∧
      fetching (issuedT (.giveBack 1) (stateT (streamT .stopping [takenT 1 none none] .none))) 3 = false ∧
      (∃ v ∈ (streamT .stopping [takenT 1 none none, takenT 2 none none] .none).taken, v.tid ≠ 1) ∧
      serving { stateT (streamT .stopping [takenT 1 none none] .none) with
        engine := some { stream := 3, laneChanges := 0 } } 3 = true ∧
      (streamT .halting [takenT 1 none none] .none).state ≠ .stopping :=
  ⟨rfl, by decide, by decide +kernel, by decide +kernel, by decide, by decide +kernel, by decide⟩

theorem witness_FinishWordChosenWhenIssued :
    (finishT 1).tag = .finish (takenT 1 (some 0) none).tid false ∧
      [takenT 0 (some 0) none, takenT 1 (some 0) none, takenT 2 none none] =
        [takenT 0 (some 0) none] ++ takenT 1 (some 0) none :: [takenT 2 none none] ∧
      (∀ v ∈ [takenT 0 (some 0) none], v.tid ≠ (takenT 1 (some 0) none).tid) ∧
      (∃ v ∈ [takenT 2 none none], v.givingBack = false) ∧
      (∃ e ∈ (bypassT 4096).bypass, e.preceding = (takenT 1 (some 0) none).addr) := by decide

/-- A state word of the newest begun span at the front of the queue: with a read of its next-link, with a span still to be given
back, and free to go. -/
theorem witness_FinishWordChosenWhenIssued_held :
    (fetchT (.wait .link 4096 false false) { streamT .running [takenT 1 (some 0) none, takenT 2 (some 0) none] .none with
        queue := [finishT 1] }).fetch = some { stream := 3, phase := .wait .link (finishT 1).addr false false } ∧
      finishesReleased (streamT .running [takenT 1 (some 0) none, takenT 2 (some 0) none] .none) 1 = true ∧
      newestBegun (streamT .stopping [takenT 1 (some 0) none, takenT 2 none none] .none) = some (takenT 1 (some 0) none) ∧
      (∃ v ∈ (streamT .stopping [takenT 1 (some 0) none, takenT 2 none none] .none).taken,
        v.start = none ∧ v.givingBack = false) ∧
      finishHeld (stateT (streamT .running [takenT 1 (some 0) none] .none)) 3 (finishT 1) = false ∧
      (∀ i ∈ (stateT (streamT .running [takenT 1 (some 0) none] .none)).issued, i.stream ≠ 3) :=
  ⟨rfl, by decide, by decide, by decide, by decide, by decide⟩

/-- A STOPPING stream with its newest begun span's word queued, during each part of a take. -/
theorem witness_FinishWordChosenWhenIssued_taking :
    ∀ p : FetchPhase, p ∈ [FetchPhase.header 64, .marks 64 (hdrT 1 0), .profile 64 (hdrT 0 64) [],
        .active 64 (hdrT 0 0) [] none] →
      (fetchT p { streamT .stopping [takenT 1 (some 0) none] .none with queue := [finishT 1] }).fetch =
        some { stream := 3, phase := p } ∧
      newestBegun (streamT .stopping [takenT 1 (some 0) none] .none) = some (takenT 1 (some 0) none) ∧
      mayTake (fetchT p { streamT .stopping [takenT 1 (some 0) none] .none with queue := [finishT 1] }) 3 = true := by
  decide +kernel

/-- A stream at an anchor whose RELEASED word is out, which asks for a lane read. -/
theorem witness_FinishWordChosenWhenIssued_leaving :
    (issuedT (.finish 1 true) (stateT { streamT .running [takenT 2 none none] .none with position := .anchor 4096 })).issued =
      [{ stream := 3, write := { addr := 4096, bytes := [4#8, 0#8, 0#8, 0#8], tag := .finish 1 true } }] ∧
      requests (issuedT (.finish 1 true)
        (stateT { streamT .running [takenT 2 none none] .none with position := .anchor 4096 })) 3 = true := by decide +kernel

theorem witness_FailedWritesByKind :
    ∀ tag, (issuedT tag (stateT (streamT .running [takenT 1 (some 0) (some true)] .none))).issued[0]? =
      some { stream := 3, write := { addr := 4096, bytes := [4#8, 0#8, 0#8, 0#8], tag := tag } } ∧
      findTaken ((issuedT tag (stateT (streamT .running [takenT 1 (some 0) (some true)] .none))).stream 3) 1 =
        some (takenT 1 (some 0) (some true)) ∧
      recordsFailure ((issuedT tag (stateT (streamT .running [takenT 1 (some 0) (some true)] .none))).stream 3).state = true :=
  fun _ => ⟨rfl, rfl, rfl⟩

theorem witness_FailedWritesByKind_take_and_skip :
    ∀ (tag : WriteTag) (p : FetchPhase),
      (issuedT tag (fetchT p (streamT .running [] .none))).fetch = some { stream := 3, phase := p } ∧
      (issuedT tag (fetchT p (streamT .running [] .none))).issued[0]? =
        some { stream := 3, write := { addr := 4096, bytes := [4#8, 0#8, 0#8, 0#8], tag := tag } } ∧
      recordsFailure ((issuedT tag (fetchT p (streamT .running [] .none))).stream 3).state = true :=
  fun _ _ => ⟨rfl, rfl, rfl⟩

theorem witness_FailedWritesByKind_aborting :
    ∀ tag, (issuedT tag (stateT (streamT .aborting [takenT 1 (some 0) (some true)] .none))).issued[0]? =
      some { stream := 3, write := { addr := 4096, bytes := [4#8, 0#8, 0#8, 0#8], tag := tag } } ∧
      ((issuedT tag (stateT (streamT .aborting [takenT 1 (some 0) (some true)] .none))).stream 3).state = .aborting :=
  fun _ => ⟨rfl, rfl⟩

theorem witness_AnchorReleaseReported :
    (issuedT (.anchorRelease .take 7#32) (stateT { streamT .running [] .none with owed := [.running] })).issued[0]? =
      some { stream := 3, write := { addr := 4096, bytes := [4#8, 0#8, 0#8, 0#8], tag := .anchorRelease .take 7#32 } } ∧
      (streamT .running [] .none).progressAddr = some 64 ∧
      (anchoredT .closed []).chain.anchor = some { addr := 64, sequence := 1, link := 128, finished := true } ∧
      (streamT .closed [] .none).chain.anchor = none := ⟨rfl, rfl, rfl, rfl⟩

theorem witness_SkipMovesChainOn :
    (issuedT .skipReleased (fetchT (.skip 4096 (hdrT 0 0)) (streamT .running [] .none))).fetch =
      some { stream := 3, phase := .skip 4096 (hdrT 0 0) } ∧ (hdrT 0 0).link % 64 = 0 ∧
      (streamT .running [] .none).chain.anchor = none := ⟨rfl, by decide, rfl⟩

/-- An anchor in the list, and one that reads FINISHED. -/
theorem witness_SkipMovesChainOn_anchor :
    { Chain.empty with anchor := some { addr := 64, sequence := 1, link := 128, finished := false } }.anchor =
      some { addr := 64, sequence := 1, link := 128, finished := false } ∧
      (∀ b ∈ (bypassT 4096).bypass, b.preceding ≠ 64) ∧
      (anchoredT .running []).chain.anchor = some { addr := 64, sequence := 1, link := 128, finished := true } := by decide

/-- A misaligned next-link, and an anchor in the list that has an entry already. -/
theorem witness_SkipMovesChainOn_misaligned_and_second :
    { hdrT 0 0 with link := 4 }.link % 64 ≠ 0 ∧
      (∃ b ∈ (bypassT 64).bypass.filter (fun b => !decide (b.preceding = 4096)), b.preceding = 64) := by decide

/-- A skip whose stream is STOPPING: with an empty list and a FINISHED anchor or none, and with a begun span. -/
theorem witness_SkipMovesChainOn_stopping :
    (issuedT .skipReleased (fetchT (.skip 4096 (hdrT 0 0)) (anchoredT .stopping []))).fetch =
        some { stream := 3, phase := .skip 4096 (hdrT 0 0) } ∧
      (anchoredT .stopping []).chain.anchor = some { addr := 64, sequence := 1, link := 128, finished := true } ∧
      (streamT .stopping [] .none).chain.anchor = none ∧ (streamT .stopping [] .none).progressAddr = some 64 ∧
      (streamT .stopping [] .none).owed = [] ∧
      serving (issuedT .skipReleased (fetchT (.skip 4096 (hdrT 0 0)) (anchoredT .stopping []))) 3 = false ∧
      (∀ u ∈ (streamT .stopping [takenT 1 (some 0) (some false)] .none).taken, u.start ≠ none ∨ u.givingBack = true) ∧
      (streamT .stopping [takenT 1 (some 0) (some false)] .none).taken ≠ [] := ⟨rfl, by decide⟩

/-- R154, log entry 47: that skip ends the stop, and no take begins. -/
theorem test_skip_done_in_stopping :
    (match exec (.writeDone 0 true) (issuedT .skipReleased (fetchT (.skip 4096 (hdrT 0 0)) (anchoredT .stopping []))) with
      | .next t => (t.stream 3).state = .stopped ∧ (t.stream 3).position = .span 128 ∧ t.fetch = none ∧
          (t.stream 3).owed = [.stopping, .stopped]
      | _ => False) := ⟨rfl, rfl, rfl, rfl⟩

def containerT (addr : Nat) : Write :=
  { addr := addr, bytes := [0#8, 1#8], tag := .container 1 }

theorem witness_WritesIssuedInTurnAndGathered :
    issuable (stateT { streamT .running [takenT 1 (some 0) none] .none with queue := [containerT 4] }) 3 = true ∧
      (gather (containerT 4094) [containerT 4096, containerT 4098]).2 = [containerT 4096, containerT 4098] ∧
      (gather (containerT 4) [containerT 6, containerT 10]).2 = [containerT 10] ∧
      (gather (containerT 4) [containerT 6, containerT 10]).1.bytes = [0#8, 1#8, 0#8, 1#8] ∧
      findTaken (streamT .running [takenT 1 (some 0) none] .none) 1 = some (takenT 1 (some 0) none) ∧
      recordsFailure .aborting = false := by decide +kernel

/-- A progress record reported written with the next write waiting behind it, and a report of no write under way. -/
theorem witness_WritesIssuedInTurnAndGathered_done :
    (issuedT .progress (stateT (streamT .running [] .none))).issued[0]? =
        some { stream := 3, write := { addr := 4096, bytes := [4#8, 0#8, 0#8, 0#8], tag := .progress } } ∧
      (issuedT .progress State.reset).issued.length ≤ 1 ∧ 0 < (issuedT .progress State.reset).issued.length := by
  decide +kernel

/-- R175: the ordered write behind it is issued at the report. -/
theorem test_next_write_is_issued :
    (match exec (.writeDone 0 true) (issuedT .progress
        (stateT { streamT .running [] .none with queue := [stateWrite 64 2 .active] })) with
      | .next t => t.issued = [{ stream := 3, write := stateWrite 64 2 .active }] ∧ (t.stream 3).queue = []
      | _ => False) := ⟨rfl, rfl⟩

theorem witness_MedianTwoLaneAndVoidVote :
    freshLanes.retired = none ∧
      ([usable freshLanes 0 (.value 1), usable freshLanes 1 (.void .fetch), usable freshLanes 2 (.void .scanner)].filter
        Option.isSome).length < 2 := by decide

theorem witness_MedianTwoLaneAndVoidVote_two_lanes :
    voteRetired.retired ≠ some 0 ∧ voteRetired.retired ≠ some 1 ∧ usable voteRetired 2 (.value 0) = none ∧
      |(7 : Int) - 7| ≤ 0 ∧ 0 < |(8 : Int) - 7| := by decide +kernel

theorem witness_OutliersCountedInRange :
    voteStart.counts[(2 : Lane)] + 1 ≤ 3 ∧ 2 < voteStart.counts[(2 : Lane)] + 1 ∧ voteStart.retired = none ∧
      voteStart.counter + 1 ≠ 65536 ∧
      { voteStart with counter := 65535 }.counter + 1 = 65536 := by decide +kernel

theorem witness_OutliersCountedInRange_range :
    LanesHold { voteStart with counter := 65535 } ∧ LanesHold voteRetired := by
  unfold LanesHold
  decide +kernel

/-- R14: the prediction history takes a voted value and keeps two. -/
theorem witness_OutliersCountedInRange_one_lane :
    ((combine 0 1 (.one (.value 7)) voteStart).2.1.history = [7, 4100]) ∧
      (combine 0 1 (.one (.void .fetch)) voteStart).2.1 = voteStart ∧
      (combine 1000 3 (.three (.value 1) (.value 2) (.value 3)) { voteStart with counter := 65535 }).2.1.counter = 0 := by
  decide

theorem witness_PerforationPhase_known_next :
    (∃ m ∈ (buildSchedule 40000 2000 marksS).accepted, m.offset = 40118 ∧ 40000 < 40118 ∧
        ∀ m' ∈ (buildSchedule 40000 2000 marksS).accepted, 40000 < m'.offset → 40118 ≤ m'.offset) ∧
      (∀ m ∈ (buildSchedule 40000 2000 marksS).accepted, m.offset ≤ 41611) ∧
      (buildSchedule 40000 2000 marksS).lookAhead.head?.map Mark.offset = some 42109 ∧
      (buildSchedule 40000 2000 marksS).accepted.Pairwise (fun m n => m.offset < n.offset) := by decide +kernel

theorem witness_PerforationPhase_no_next :
    (∀ m ∈ (buildSchedule 0 256 []).accepted, m.offset ≤ 0) ∧ (buildSchedule 0 256 []).lookAhead = [] ∧
      freshMarks.pk = none ∧ { freshMarks with pk := some 0 }.period = none := by decide

/-- The schedule of 2.8: a position with a mark, one without, and the span's last, which its splice bump runs past. -/
theorem witness_MarkStateTracked :
    (buildSchedule 40000 2000 marksS).accepted.Pairwise (fun m m' => m.offset < m'.offset) ∧
      (∃ m ∈ (buildSchedule 40000 2000 marksS).accepted, m.offset = 40118 ∧ m.frameStart = true) ∧
      (∃ m ∈ (buildSchedule 40000 2000 marksS).accepted, m.offset = 40617 ∧ m.frameStart = false) ∧
      (∀ m ∈ (buildSchedule 40000 2000 marksS).accepted, m.offset ≠ 40000) ∧
      (∃ m ∈ (buildSchedule 40000 1120 marksS).accepted, m.splice = true ∧ 41119 < m.offset + 16) := by decide +kernel

/-- The phase after the mark at a position, and none before any mark. -/
theorem witness_MarkStateTracked_phase :
    phaseAt (buildSchedule 40000 2000 marksS) { freshMarks with pk := some 40118, period := some 498 } 40118 =
        some (0, false) ∧
      phaseAt (buildSchedule 40000 2000 marksS) freshMarks 40000 = none ∧
      (track (buildSchedule 40000 2000 marksS) 16 40000 41999 false 40118 { freshMarks with pk := some 39620 }).2.period =
        some 498 := by decide +kernel

theorem test_frame_and_period_tracked :
    (track (buildSchedule 40000 2000 marksS) 16 40000 41999 false 40118
      { pk := some 39620, period := some 497, protect := true, hissRef := true, bumpEnd := none }) =
      ({ bin := some 0, overrun := false, splice := false, prot := false, bump := false, refEnd := true },
       { pk := some 40118, period := some 498, protect := false, hissRef := true, bumpEnd := none }) := by decide +kernel

theorem witness_HumSubtractedAndLearned :
    templateCanonical { cells := [(0, -2147483392), (5, 12800)] } = true := by decide

/-- Samples that do not learn and one that does, and the line counter before and at its return (R43, R50). -/
theorem witness_HumSubtractedAndLearned_eligible :
    isVoid (.void .scanner) = true ∧ isVoid (.value 301) = false ∧
      (advanceLine 960 { hum38 with counter := 958 }).counter = 959 ∧
      (advanceLine 960 { hum38 with counter := 959 }).counter = 0 ∧ 959 < 960 := by decide

theorem witness_ClassificationAndNoise :
    16 * (profT.noiseMin : Int) ≤ 16 * 8388607 ∧ (16 * 8388607 : Int) ≤ 16 * 8388607 ∧ profT.noiseMin ≤ 8388607 :=
  by decide

theorem witness_WindowRepairedOrPassed_line :
    1 ≤ 1 ∧ 1 ≤ 1 ∧ InRange 8388607 ∧ InRange (-8388607) := by
  unfold InRange
  decide

theorem witness_HoldBackBounded_profile :
    ProfileLimited profT := by
  unfold ProfileLimited HissLimited
  decide +kernel

def heldT (n : Nat) (flagged : Bool) : Held :=
  { pos := n, span := 0, u := .value 0, unresolved := false, prot := false, bump := false, refEnd := false
    absE := none, flagged := flagged }

/-- Three held samples and no window. -/
theorem witness_HoldBackBounded_no_window :
    ClickHolds { freshClick 1 with held := [heldT 0 false, heldT 1 false, heldT 2 false] } 3 :=
  ⟨by decide, by decide, (fun _ h => nomatch h), Nat.le_refl 3⟩

/-- An open window at the oldest held sample, after one that ended just before it. -/
theorem witness_HoldBackBounded_window :
    ClickHolds { freshClick 1 with
      held := [heldT 2 false, heldT 3 true], prevEnd := some 1, window := some (windowT 2 3 1 96 false) } 4 := by
  refine ⟨by decide, by decide, ?_, by decide, by decide, by decide, by decide, by decide, by decide⟩
  intro e h
  cases h
  decide

/-- A LONG window that the next sample ends at the window limit. -/
theorem witness_HoldBackBounded_long :
    ClickHolds { freshClick 1 with window := some (windowT 0 4095 0 4 true) } 4096 :=
  ⟨by decide, by decide, (fun _ h => nomatch h), by decide, by decide, by decide, by decide, by decide, by decide⟩

/-- A run of the samples held, with the window given. -/
def runT (held : List Held) (window : Option Window) : Run :=
  { ctx := { ctxT .one with click := { freshClick 1 with held := held, window := window, prevEnd := some 0 } }
    live := [0], emits := [], laneChanges := 0 }

/-- A flagged sample and one that is not, behind two held samples and the window before them; a growth, a closure and the window
limit. -/
theorem witness_WindowsOpenGrowAndClose :
    (runT [heldT 1 false, heldT 2 false, heldT 3 true] none).ctx.click.held =
        [heldT 1 false, heldT 2 false] ++ [heldT 3 true] ∧
      ([heldT 1 false, heldT 2 false] ++ [heldT 3 true]).Pairwise (fun x y => x.pos < y.pos) ∧
      (∀ e, (runT [heldT 1 false] none).ctx.click.prevEnd = some e → e < (heldT 3 true).pos) ∧
      (heldT 3 true).flagged = true ∧ (heldT 3 false).flagged = false ∧
      (heldT 4 true).pos ≠ (windowT 2 3 1 96 false).start + 4096 ∧
      { windowT 2 3 1 96 false with quiet := 3 }.quiet = 3 ∧ (windowT 2 3 1 96 false).quiet ≠ 3 ∧
      (heldT 4096 true).pos = (windowT 0 4095 0 4 true).start + 4096 :=
  ⟨rfl, by decide, fun e h => by cases h; decide, by decide⟩

/-- Held samples at and above the bound of R78, with no window, a LONG one and one that is not. -/
theorem witness_WindowsOpenGrowAndClose_release :
    (∀ x ∈ [heldT 1 false], x.pos + 2 ≤ 3) ∧ (∀ x ∈ [heldT 2 false], 3 < x.pos + 2) ∧
      (windowT 0 9 0 4 true).long = true ∧ (windowT 2 3 1 96 false).long = false := by decide

/-- The samples to the end of the window, and the first sample after it as the right anchor. -/
theorem witness_WindowRepairedOrPassed :
    (runT [heldT 1 false, heldT 2 true, heldT 3 false, heldT 4 false] (some (windowT 1 2 1 96 false))).ctx.click.held =
        [heldT 1 false, heldT 2 true, heldT 3 false] ++ [heldT 4 false] ∧
      (∀ x ∈ [heldT 1 false, heldT 2 true, heldT 3 false], x.pos ≤ 3) ∧ (∀ x ∈ [heldT 4 false], 3 < x.pos) ∧
      windowKind (windowT 1 2 1 96 false).long emptyContent = .click ∧
      windowKind (windowT 0 9 0 4 true).long emptyContent = .long := ⟨rfl, by decide, by decide, by decide, by decide⟩

/-- R82: the flush of a window with its left anchor alone gives every sample the anchor's value, and the last output is it. -/
theorem test_flush_repairs_with_the_left_anchor :
    (flushClick 3 (runT [heldT 2 true, heldT 3 false]
      (some { windowT 2 2 1 96 false with left := some (.value 7) }))).ctx.click.lastOut = some (.value 7) := by
  decide +kernel

theorem witness_HoldBackBounded_last :
    (ctxT .one).position =
      lastPosition { start := 0, count := 1, last := true, protectAll := false, sched := buildSchedule 0 1 [] } := by
  decide +kernel

/-- Tallies that a voted, a passed and a repaired sample find. -/
theorem witness_ReportTalliesCounted :
    ({ ctxT .one with tallies := [freshTally 0 256 1] }.tallies.find? fun t => decide (t.start = 0)) =
        some (freshTally 0 256 1) ∧
      (combine 65535 0 (.one (.value 5)) freshLanes).1.v = .value 5 ∧ isVoid (heldT 3 true).u = false ∧
      isVoid (.void .fetch) = true := by decide +kernel

theorem witness_HissExpansion :
    SampleHolds (.value (-8388607)) ∧ HissHolds (freshHiss (hissParams profT)) ∧ HissLimited (hissParams profT) := by
  unfold SampleHolds InRange HissHolds HissLimited
  decide +kernel

/-- A span's first sample with its profile's parameters pending, and a further sample of the span. -/
theorem witness_HissExpansion_switch :
    { freshHiss (hissParams profT) with pendingParams := some hissParams59 }.prevSpan ≠ some 0 ∧
      HissLimited hissParams59 ∧ { freshHiss (hissParams profT) with prevSpan := some 0 }.prevSpan = some 0 := by
  unfold HissLimited
  decide

/-- A queued ACTIVE word keeps its place where no state word of the newest begun span stands before it, and else moves ahead of
that word alone (R123, R175). -/
theorem test_active_keeps_its_place :
    (advanceActive { streamT .stopping [takenT 1 (some 0) none] .none with
      queue := [stateWrite 64 2 .active, stateWrite 64 0 (.container 1), finishT 1] }).queue.map Write.tag =
        [.active, .container 1, .finish 1 false] ∧
    (advanceActive { streamT .stopping [takenT 1 (some 0) none] .none with
      queue := [stateWrite 64 0 (.container 1), finishT 1, stateWrite 64 2 .active, stateWrite 64 0 .progress] }).queue.map
        Write.tag = [.container 1, .active, .finish 1 false, .progress] := by decide +kernel

theorem witness_SignaturesCovered :
    [freshTally 0 256 1].find? (fun t => decide (t.start = 0)) = some (freshTally 0 256 1) ∧ InRange (-8388607) ∧
      (0x31#8 : Byte) ≠ 0x32#8 := by
  unfold InRange
  decide

theorem witness_ContainersDecodeAndRoundTrip :
    ([1#8, 2#8, 3#8, 4#8] : List Byte)[2 * 1]? = some 3#8 ∧ ([1#8, 2#8, 3#8, 4#8] : List Byte)[2 * 1 + 1]? = some 4#8 ∧
      ([1#8, 2#8, 3#8, 4#8] : List Byte)[4 * 0 + 3]? = some 4#8 ∧ (cfgT .one).laneFormat = .l24 ∧
      { cfgT .one with laneFormat := .l16 }.laneFormat = .l16 := by decide

/-! ## One command (10.3, Example: two writes in quick succession) -/

def afterT (c : Instr) (s : State) : State :=
  match exec c s with
  | .next t => t
  | _ => s

/-- Stream 3 RUNNING with resume tag 9, and STOP written for it. -/
def stopWrittenT : State :=
  pendingT 2#3 { streamT .running [takenT 1 (some 0) (some false)] .none with tag := 9 }

theorem test_resume_while_pending_is_dropped :
    (afterT (.cmdResume 3#4 false 9#16) stopWrittenT).cmd = stopWrittenT.cmd ∧
      (afterT (.cmdResume 3#4 false 9#16) stopWrittenT).faults = 0b1000#4 ∧
      (afterT (.cmdResume 3#4 false 9#16) stopWrittenT).lastFault = 3#4 ∧
      (afterT (.cmdResume 3#4 false 9#16) stopWrittenT).evlatch = 0b10000#5 := by decide +kernel

theorem test_stop_taken : ((afterT .commandDispatch stopWrittenT).stream 3).state = .stopping ∧
    (afterT .commandDispatch stopWrittenT).cmd.result = .accepted := by decide +kernel

theorem test_resume_with_the_old_tag_is_refused :
    (afterT .commandDispatch { stateT { streamT .stopped [] .none with tag := 10 } with
      cmd := { stream := 3, code := 4, skip := false, result := .pending, tag := 9 } }).cmd.result = .refusedTag := by
  decide +kernel

/-- 10.1: RESET beside ENABLE leaves ENABLE 0. -/
theorem test_reset_with_enable : (afterT (.deviceReset (.devctlWrite true)) stopWrittenT).enable = false ∧
    (afterT (.deviceReset (.devctlWrite true)) stopWrittenT).polliv = 100#16 := by decide +kernel

end Sys2Proof.Tests
end

section
/-! PROOFS. Bytes as two's complement numbers, and the containers read and written (R2 to R5, R102 to R106). -/

namespace Sys2Proof.Machine

/-! ## Bytes and the numbers they hold -/

theorem toNat_append_byte {n : Nat} (x : BitVec n) (b : Byte) : (x ++ b).toNat = b.toNat + 256 * x.toNat := by
  rw [BitVec.toNat_append, ← Nat.shiftLeft_add_eq_or_of_lt b.isLt, Nat.shiftLeft_eq]
  omega

theorem signedValue_leNat_two (b0 b1 : Byte) : signedValue 16 (leNat [b0, b1]) = (b1 ++ b0).toInt := by
  have h : leNat [b0, b1] = (b1 ++ b0).toNat := by simp [leNat, toNat_append_byte]
  rw [signedValue, h, BitVec.ofNat_toNat, BitVec.setWidth_eq]

theorem signedValue_leNat_three (b0 b1 b2 : Byte) :
    signedValue 24 (leNat [b0, b1, b2]) = (b2 ++ b1 ++ b0).toInt := by
  have h : leNat [b0, b1, b2] = (b2 ++ b1 ++ b0).toNat := by simp [leNat, toNat_append_byte]
  rw [signedValue, h, BitVec.ofNat_toNat, BitVec.setWidth_eq]

theorem signedValue_bounds (bits v : Nat) : -2 ^ bits ≤ 2 * signedValue bits v ∧ 2 * signedValue bits v < 2 ^ bits :=
  ⟨BitVec.le_two_mul_toInt, BitVec.two_mul_toInt_lt⟩

/-- The `k` low bytes of an integer written in `n` bytes hold it in two's complement, when `k` bytes can. -/
theorem signedValue_leNat_leBytes {k n : Nat} {x : Int} (hkn : k ≤ n) (hlo : -(256 ^ k : Nat) ≤ x * 2)
    (hhi : x * 2 < (256 ^ k : Nat)) :
    signedValue (8 * k) (leNat (leBytes k (x % (256 ^ n : Nat)).toNat)) = x := by
  have hpos : (0 : Int) < (256 ^ n : Nat) := by positivity
  have hdvd : ((256 ^ k : Nat) : Int) ∣ (256 ^ n : Nat) := Int.natCast_dvd_natCast.2 (pow_dvd_pow _ hkn)
  have hlow : ((leNat (leBytes k (x % (256 ^ n : Nat)).toNat) : Nat) : Int) = x % (256 ^ k : Nat) := by
    rw [leNat_leBytes, Int.natCast_mod, Int.toNat_of_nonneg (Int.emod_nonneg x hpos.ne'), Int.emod_emod_of_dvd x hdvd]
  have hwidth : 2 ^ (8 * k) = 256 ^ k := by rw [pow_mul]; norm_num
  rw [signedValue, ← BitVec.ofInt_natCast, BitVec.toInt_ofInt, hlow, hwidth, Int.emod_bmod,
    Int.bmod_eq_of_le_mul_two hlo hhi]

/-! ## Lane containers (R2 to R5) -/

theorem sampleOfL16_of_signedValue {v : Nat} {x : Int} (h : signedValue 16 v = x) :
    sampleOfL16 v = if x = -32768 then .void .scanner else .value (256 * x) := by
  subst h; rfl

theorem sampleOfL24_of_signedValue {v : Nat} {x : Int} (h : signedValue 24 v = x) :
    sampleOfL24 v = if x = -8388608 then .void .scanner else .value x := by
  subst h; rfl

theorem sampleHolds_sampleOfL16 (v : Nat) : SampleHolds (sampleOfL16 v) := by
  have h := signedValue_bounds 16 v
  rw [sampleOfL16_of_signedValue rfl]
  split
  · trivial
  · simp only [SampleHolds, InRange]; omega

theorem sampleHolds_sampleOfL24 (v : Nat) : SampleHolds (sampleOfL24 v) := by
  have h := signedValue_bounds 24 v
  rw [sampleOfL24_of_signedValue rfl]
  split
  · trivial
  · simp only [SampleHolds, InRange]; omega

theorem decodeL16_little (b0 b1 : Byte) : decodeL16 .little b0 b1 =
    if (b1 ++ b0).toInt = -32768 then .void .scanner else .value (256 * (b1 ++ b0).toInt) :=
  sampleOfL16_of_signedValue (signedValue_leNat_two b0 b1)

theorem decodeL24_little (b0 b1 b2 b3 : Byte) : decodeL24 .little b0 b1 b2 b3 =
    if (b2 ++ b1 ++ b0).toInt = -8388608 then .void .scanner else .value (b2 ++ b1 ++ b0).toInt :=
  sampleOfL24_of_signedValue (signedValue_leNat_three b0 b1 b2)

theorem decodeL16_big (b0 b1 : Byte) : decodeL16 .big b0 b1 = decodeL16 .little b1 b0 := rfl

theorem decodeL24_big (b0 b1 b2 b3 : Byte) : decodeL24 .big b0 b1 b2 b3 = decodeL24 .little b3 b2 b1 b0 := rfl

theorem sampleHolds_decodeL16 (order : ByteOrder) (b0 b1 : Byte) : SampleHolds (decodeL16 order b0 b1) := by
  cases order with
  | little => exact sampleHolds_sampleOfL16 _
  | big => exact sampleHolds_sampleOfL16 _

theorem sampleHolds_decodeL24 (order : ByteOrder) (b0 b1 b2 b3 : Byte) : SampleHolds (decodeL24 order b0 b1 b2 b3) := by
  cases order with
  | little => exact sampleHolds_sampleOfL24 _
  | big => exact sampleHolds_sampleOfL24 _

/-- Two bytes further in the buffer is one container further among the samples. -/
theorem decodeAllL16_getElem? (order : ByteOrder) (bytes : List Byte) (i : Nat) (b0 b1 : Byte)
    (h0 : bytes[2 * i]? = some b0) (h1 : bytes[2 * i + 1]? = some b1) :
    (decodeAllL16 order bytes)[i]? = some (decodeL16 order b0 b1) := by
  induction bytes using decodeAllL16.induct generalizing i with
  | case1 c0 c1 rest ih =>
      cases i with
      | zero => simp_all [decodeAllL16]
      | succ i => exact ih i h0 h1
  | case2 bytes hshort =>
      match bytes, hshort with
      | [], _ => simp at h0
      | [_], _ => simp at h1
      | c0 :: c1 :: rest, hshort => exact absurd rfl (hshort c0 c1 rest)

/-- Four bytes further in the buffer is one container further among the samples. -/
theorem decodeAllL24_getElem? (order : ByteOrder) (bytes : List Byte) (i : Nat) (b0 b1 b2 b3 : Byte)
    (h0 : bytes[4 * i]? = some b0) (h1 : bytes[4 * i + 1]? = some b1) (h2 : bytes[4 * i + 2]? = some b2)
    (h3 : bytes[4 * i + 3]? = some b3) :
    (decodeAllL24 order bytes)[i]? = some (decodeL24 order b0 b1 b2 b3) := by
  induction bytes using decodeAllL24.induct generalizing i with
  | case1 c0 c1 c2 c3 rest ih =>
      cases i with
      | zero => simp_all [decodeAllL24]
      | succ i => exact ih i h0 h1 h2 h3
  | case2 bytes hshort =>
      match bytes, hshort with
      | [], _ | [_], _ | [_, _], _ | [_, _, _], _ => simp at h3
      | c0 :: c1 :: c2 :: c3 :: rest, hshort => exact absurd rfl (hshort c0 c1 c2 c3 rest)

theorem decodeContainers_l16 (cfg : StreamConfig) (bytes : List Byte) (h : cfg.laneFormat = .l16) :
    decodeContainers cfg bytes = decodeAllL16 cfg.laneOrder bytes := by
  simp [decodeContainers, h]

theorem decodeContainers_l24 (cfg : StreamConfig) (bytes : List Byte) (h : cfg.laneFormat = .l24) :
    decodeContainers cfg bytes = decodeAllL24 cfg.laneOrder bytes := by
  simp [decodeContainers, h]

/-! ## Output values and their containers (R103 to R106) -/

theorem outputValue_l16 (o : Int) : outputValue .l16 o =
    (max (-32767) (min 32767 ((o + 128) / 256)), decide ((o + 128) / 256 < -32767 ∨ 32767 < (o + 128) / 256)) := by
  simp only [outputValue, clampTo_eq (-32767) 32767 _ (by decide), Prod.mk.injEq, decide_eq_decide, true_and]
  omega

theorem outputValue_l16_ne_voidCode (o : Int) : (outputValue .l16 o).1 ≠ voidCode .l16 := by
  rw [outputValue_l16, voidCode]; dsimp only; omega

/-- A value that came from an L16 container leaves as it came (R103). -/
theorem outputValue_l16_mul_256 (x : Int) (hlo : -32767 ≤ x) (hhi : x ≤ 32767) :
    outputValue .l16 (256 * x) = (x, false) := by
  have hround : (256 * x + 128) / 256 = x := by omega
  rw [outputValue_l16, hround, Prod.mk.injEq, decide_eq_false_iff_not]
  omega

theorem formatSample_value (cfg : StreamConfig) (o : Int) : formatSample cfg (.value o) =
    (containerBytes cfg.outputFormat cfg.outputOrder (outputValue cfg.outputFormat o).1,
      (outputValue cfg.outputFormat o).2) := rfl

theorem formatSample_void (cfg : StreamConfig) (o : VoidOrigin) : formatSample cfg (.void o) =
    (containerBytes cfg.outputFormat cfg.outputOrder (voidCode cfg.outputFormat), false) := rfl

/-- An L16 output container read as a lane container of the same byte order. -/
theorem decodeL16_containerBytes (order : ByteOrder) (x : Int) (hlo : -32768 ≤ x) (hhi : x ≤ 32767) :
    ∃ b0 b1 : Byte, containerBytes .l16 order x = [b0, b1] ∧
      decodeL16 order b0 b1 = if x = -32768 then .void .scanner else .value (256 * x) := by
  have hnum : signedValue 16 (leNat (leBytes 2 (x % (256 ^ 2 : Nat)).toNat)) = x :=
    signedValue_leNat_leBytes (k := 2) le_rfl (by norm_num; omega) (by norm_num; omega)
  cases order with
  | little => exact ⟨_, _, rfl, sampleOfL16_of_signedValue hnum⟩
  | big => exact ⟨_, _, rfl, sampleOfL16_of_signedValue hnum⟩

/-- The fourth byte of a 24-bit value written as a 32-bit word repeats bit 23 (R105). -/
theorem signByte_of_l24 (x : Int) (hlo : -8388608 ≤ x) (hhi : x ≤ 8388607) :
    BitVec.ofNat 8 ((x % (256 ^ 4 : Nat)).toNat / 256 / 256 / 256) = if x < 0 then 0xFF#8 else 0x00#8 := by
  split
  · have h : (x % (256 ^ 4 : Nat)).toNat / 256 / 256 / 256 = 255 := by norm_num; omega
    rw [h]
  · have h : (x % (256 ^ 4 : Nat)).toNat / 256 / 256 / 256 = 0 := by norm_num; omega
    rw [h]

/-- An L24 output container read as a lane container of the same byte order, and its sign byte. -/
theorem decodeL24_containerBytes (order : ByteOrder) (x : Int) (hlo : -8388608 ≤ x) (hhi : x ≤ 8388607) :
    ∃ b0 b1 b2 b3 : Byte, containerBytes .l24 order x = [b0, b1, b2, b3] ∧
      decodeL24 order b0 b1 b2 b3 = (if x = -8388608 then .void .scanner else .value x) ∧
      (match order with | .little => b3 | .big => b0) = (if x < 0 then 0xFF#8 else 0x00#8) := by
  have hnum : signedValue 24 (leNat (leBytes 3 (x % (256 ^ 4 : Nat)).toNat)) = x :=
    signedValue_leNat_leBytes (k := 3) (by decide) (by norm_num; omega) (by norm_num; omega)
  have hsign := signByte_of_l24 x hlo hhi
  cases order with
  | little => exact ⟨_, _, _, _, rfl, sampleOfL24_of_signedValue hnum, hsign⟩
  | big => exact ⟨_, _, _, _, rfl, sampleOfL24_of_signedValue hnum, hsign⟩

/-- Settles O57: the containers decoded, the output values, and the round trip for each format. -/
theorem containersDecodeAndRoundTrip : Obligations.ContainersDecodeAndRoundTrip := by
  unfold Obligations.ContainersDecodeAndRoundTrip
  refine ⟨⟨decodeL16_little, decodeL16_big, decodeL24_little, decodeL24_big, ?holds, ?containers⟩,
    ⟨fun _ => rfl, fun o => ⟨outputValue_l16 o, outputValue_l16_ne_voidCode o⟩, outputValue_l16_mul_256,
      formatSample_value, ?void⟩, fun order => ⟨decodeL16_containerBytes order, decodeL24_containerBytes order⟩⟩
  case holds =>
    intro order b0 b1 b2 b3
    exact ⟨sampleHolds_decodeL16 order b0 b1, sampleHolds_decodeL24 order b0 b1 b2 b3⟩
  case containers =>
    intro cfg bytes i b0 b1 b2 b3
    constructor
    · intro hf h0 h1
      rw [decodeContainers_l16 cfg bytes hf]
      exact decodeAllL16_getElem? cfg.laneOrder bytes i b0 b1 h0 h1
    · intro hf h0 h1 h2 h3
      rw [decodeContainers_l24 cfg bytes hf]
      exact decodeAllL24_getElem? cfg.laneOrder bytes i b0 b1 b2 b3 h0 h1 h2 h3
  case void =>
    intro cfg o
    rw [formatSample_void]
    cases cfg.outputFormat <;> rfl

end Sys2Proof.Machine
end

section
/-! PROOFS. The vote of a position (R8 to R15): the median, the two-lane vote and the void vote. -/

namespace Sys2Proof.Machine

/-! ## The vote that applies (R8) -/

theorem usable_value {ls : LaneState} {l : Lane} (h : ls.retired ≠ some l) (x : Int) :
    usable ls l (.value x) = some x := by
  simp [usable, h]

section votes

variable {d : Nat} {ls : LaneState} {a b c : Sample} {x y z : Int}

theorem voteRow_three_usable (h0 : usable ls 0 a = some x) (h1 : usable ls 1 b = some y) (h2 : usable ls 2 c = some z) :
    voteRow d ls (.three a b c) = medianVote d x y z := by
  simp [voteRow, h0, h1, h2]

theorem voteRow_lanes_0_1 (h0 : usable ls 0 a = some x) (h1 : usable ls 1 b = some y) (h2 : usable ls 2 c = none) :
    voteRow d ls (.three a b c) = twoLaneVote d ls.history 0 1 x y := by
  simp [voteRow, h0, h1, h2]

theorem voteRow_lanes_0_2 (h0 : usable ls 0 a = some x) (h1 : usable ls 1 b = none) (h2 : usable ls 2 c = some y) :
    voteRow d ls (.three a b c) = twoLaneVote d ls.history 0 2 x y := by
  simp [voteRow, h0, h1, h2]

theorem voteRow_lanes_1_2 (h0 : usable ls 0 a = none) (h1 : usable ls 1 b = some x) (h2 : usable ls 2 c = some y) :
    voteRow d ls (.three a b c) = twoLaneVote d ls.history 1 2 x y := by
  simp [voteRow, h0, h1, h2]

theorem voteRow_void
    (h : ([usable ls 0 a, usable ls 1 b, usable ls 2 c].filter Option.isSome).length < 2) :
    voteRow d ls (.three a b c) = plainVote (.void (voidOrigin ls a b c)) := by
  simp only [voteRow]
  split
  case h_5 => rfl
  all_goals next h0 h1 h2 => simp [h0, h1, h2] at h

end votes

/-! ## The median vote (R10, R11) -/

/-- The order of R10. -/
def lowest (a b c : Int) : Int := min a (min b c)

def middle (a b c : Int) : Int := max (min a b) (min (max a b) c)

def highest (a b c : Int) : Int := max a (max b c)

theorem lowest_le_middle (a b c : Int) : lowest a b c ≤ middle a b c := by
  unfold lowest middle; omega

theorem middle_le_highest (a b c : Int) : middle a b c ≤ highest a b c := by
  unfold middle highest; omega

theorem min_max_perm (x y : Int) : [min x y, max x y].Perm [x, y] := by
  rcases le_total x y with h | h
  · rw [min_eq_left h, max_eq_right h]
  · rw [min_eq_right h, max_eq_left h]
    exact List.Perm.swap ..

/-- Three exchanges of neighbours sort three values. -/
theorem lowest_middle_highest_perm (a b c : Int) :
    [lowest a b c, middle a b c, highest a b c].Perm [a, b, c] := by
  have hlow : lowest a b c = min (min a b) (min (max a b) c) := by unfold lowest; omega
  have hhigh : highest a b c = max (max a b) c := (max_assoc a b c).symm
  rw [hlow, hhigh]
  calc
    [min (min a b) (min (max a b) c), max (min a b) (min (max a b) c), max (max a b) c].Perm
        [min a b, min (max a b) c, max (max a b) c] := (min_max_perm (min a b) (min (max a b) c)).append_right [_]
    List.Perm _ [min a b, max a b, c] := (min_max_perm (max a b) c).cons _
    List.Perm _ [a, b, c] := (min_max_perm a b).append_right [c]

theorem getElem?_laneOfValue {a b c x : Int} (h : x ∈ [a, b, c]) : [a, b, c][(laneOfValue a b x).val]? = some x := by
  unfold laneOfValue
  split
  next ha => simp [ha]
  next ha =>
    split
    next hb => simp [hb]
    next hb =>
      have hc : x = c := by simpa [Ne.symm ha, Ne.symm hb] using h
      simp [hc]

theorem medianVote_agreed {d : Nat} {a b c : Int} (h : highest a b c - lowest a b c ≤ d) :
    medianVote d a b c = plainVote (.value (middle a b c)) :=
  if_neg (not_lt.2 h)

theorem medianVote_disputed {d : Nat} {a b c : Int} (h : (d : Int) < highest a b c - lowest a b c) :
    medianVote d a b c =
      { v := .value (middle a b c), disputed := true, unresolved := false
        outlier :=
          if highest a b c - middle a b c > middle a b c - lowest a b c then some (laneOfValue a b (highest a b c))
          else if middle a b c - lowest a b c > highest a b c - middle a b c then some (laneOfValue a b (lowest a b c))
          else none } :=
  if_pos h

/-- What R10 and R11 say of a vote `r` over the lane values `a`, `b`, `c`, in order `lo`, `mid`, `hi`. -/
def IsMedianVote (d : Nat) (a b c lo mid hi : Int) (r : Vote) : Prop :=
  r.v = .value mid ∧ r.unresolved = false ∧ (r.disputed = true ↔ (d : Int) < hi - lo) ∧
  (hi - lo ≤ d → r.outlier = none) ∧
  ((d : Int) < hi - lo → hi - mid = mid - lo → r.outlier = none) ∧
  ((d : Int) < hi - lo → mid - lo < hi - mid → ∃ l : Lane, r.outlier = some l ∧ [a, b, c][l.val]? = some hi) ∧
  ((d : Int) < hi - lo → hi - mid < mid - lo → ∃ l : Lane, r.outlier = some l ∧ [a, b, c][l.val]? = some lo)

theorem isMedianVote_medianVote (d : Nat) (a b c : Int) :
    IsMedianVote d a b c (lowest a b c) (middle a b c) (highest a b c) (medianVote d a b c) := by
  have hperm := lowest_middle_highest_perm a b c
  have hlow := getElem?_laneOfValue (hperm.mem_iff.1 (by simp : lowest a b c ∈ _))
  have hhigh := getElem?_laneOfValue (hperm.mem_iff.1 (by simp : highest a b c ∈ _))
  unfold IsMedianVote
  rcases le_or_gt (highest a b c - lowest a b c) (d : Int) with h | h
  · rw [medianVote_agreed h]
    simp [plainVote, h, not_lt.2 h]
  · rw [medianVote_disputed h]
    refine ⟨rfl, rfl, by simp [h], fun h' => absurd h (not_lt.2 h'), ?_, ?_, ?_⟩
    · intro _ heq
      simp [heq]
    · intro _ hfar
      exact ⟨_, if_pos hfar, hhigh⟩
    · intro _ hfar
      exact ⟨_, (if_neg hfar.not_gt).trans (if_pos hfar), hlow⟩

/-! ## The two-lane vote (R12, R13) -/

section twoLanes

variable {d : Nat} {history : List Int} {i j : Lane} {x y : Int}

theorem twoLaneVote_agreed (h : |x - y| ≤ d) :
    twoLaneVote d history i j x y = plainVote (.value ((x + y + 1) / 2)) :=
  if_pos (by zify; exact h)

theorem twoLaneVote_lower_lane (h : (d : Int) < |x - y|)
    (hnear : |x - prediction history| ≤ |y - prediction history|) :
    twoLaneVote d history i j x y = { v := .value x, disputed := true, unresolved := true, outlier := some j } := by
  have hd : ¬ (x - y).natAbs ≤ d := by zify; exact not_le.2 h
  have hx : (x - prediction history).natAbs ≤ (y - prediction history).natAbs := by zify; exact hnear
  simp only [twoLaneVote, hd, hx, if_true, if_false]

theorem twoLaneVote_upper_lane (h : (d : Int) < |x - y|)
    (hnear : |y - prediction history| < |x - prediction history|) :
    twoLaneVote d history i j x y = { v := .value y, disputed := true, unresolved := true, outlier := some i } := by
  have hd : ¬ (x - y).natAbs ≤ d := by zify; exact not_le.2 h
  have hx : ¬ (x - prediction history).natAbs ≤ (y - prediction history).natAbs := by zify; exact not_le.2 hnear
  simp only [twoLaneVote, hd, hx, if_false]

end twoLanes

/-- The mean rounded half up, which stays in range (R12). -/
theorem mean_half_up (x y : Int) : 2 * ((x + y + 1) / 2) ≤ x + y + 1 ∧ x + y < 2 * ((x + y + 1) / 2) + 1 ∧
    (InRange x → InRange y → InRange ((x + y + 1) / 2)) := by
  unfold InRange; omega

/-- What R12 and R13 say of a vote `r` between `x` of lane `i` and `y` of lane `j`, with the prediction `p`. -/
def IsTwoLaneVote (d : Nat) (p : Int) (i j : Lane) (x y : Int) (r : Vote) : Prop :=
  (|x - y| ≤ d → r.disputed = false ∧ r.unresolved = false ∧ r.outlier = none ∧
    ∃ m : Int, r.v = .value m ∧ 2 * m ≤ x + y + 1 ∧ x + y < 2 * m + 1 ∧ (InRange x → InRange y → InRange m)) ∧
  ((d : Int) < |x - y| → r.disputed = true ∧ r.unresolved = true ∧
    (|x - p| ≤ |y - p| → r.v = .value x ∧ r.outlier = some j) ∧
    (|y - p| < |x - p| → r.v = .value y ∧ r.outlier = some i))

theorem isTwoLaneVote_twoLaneVote (d : Nat) (history : List Int) (i j : Lane) (x y : Int) :
    IsTwoLaneVote d (prediction history) i j x y (twoLaneVote d history i j x y) := by
  constructor
  · intro h
    rw [twoLaneVote_agreed h]
    exact ⟨rfl, rfl, rfl, _, rfl, mean_half_up x y⟩
  · intro h
    rcases le_or_gt |x - prediction history| |y - prediction history| with hnear | hnear
    · rw [twoLaneVote_lower_lane h hnear]
      exact ⟨rfl, rfl, fun _ => ⟨rfl, rfl⟩, fun h' => absurd hnear (not_le.2 h')⟩
    · rw [twoLaneVote_upper_lane h hnear]
      exact ⟨rfl, rfl, fun h' => absurd hnear (not_lt.2 h'), fun _ => ⟨rfl, rfl⟩⟩

/-! ## The void vote (R15) -/

theorem activeFetchVoid_iff (ls : LaneState) (l : Lane) (x : Sample) :
    activeFetchVoid ls l x = true ↔ ls.retired ≠ some l ∧ x = .void .fetch := by
  simp [activeFetchVoid]

theorem voidOrigin_eq_fetch_iff (ls : LaneState) (a b c : Sample) : voidOrigin ls a b c = .fetch ↔
    ls.retired ≠ some 0 ∧ a = .void .fetch ∨ ls.retired ≠ some 1 ∧ b = .void .fetch ∨
      ls.retired ≠ some 2 ∧ c = .void .fetch := by
  have hchoice (p : Bool) : (if p then VoidOrigin.fetch else .scanner) = .fetch ↔ p = true := by
    cases p <;> simp
  rw [voidOrigin, hchoice, Bool.or_eq_true, Bool.or_eq_true, or_assoc]
  simp only [activeFetchVoid_iff]

/-- Settles O45: the median, the void vote, and the two-lane vote of each pair of lanes. -/
theorem medianTwoLaneAndVoidVote : Obligations.MedianTwoLaneAndVoidVote := by
  unfold Obligations.MedianTwoLaneAndVoidVote
  refine ⟨?median, ?void, ?twoLane⟩
  case median =>
    intro d ls a b c hactive
    have husable (l : Lane) (x : Int) : usable ls l (.value x) = some x := usable_value (by simp [hactive]) x
    refine ⟨lowest a b c, middle a b c, highest a b c, lowest_middle_highest_perm a b c, lowest_le_middle a b c,
      middle_le_highest a b c, ?_⟩
    rw [voteRow_three_usable (husable 0 a) (husable 1 b) (husable 2 c)]
    exact isMedianVote_medianVote d a b c
  case void =>
    intro d ls a b c hfew
    exact ⟨voidOrigin ls a b c, voteRow_void hfew, voidOrigin_eq_fetch_iff ls a b c⟩
  case twoLane =>
    intro d ls i j x y r hi hj hlanes
    have hx := usable_value hi x
    have hy := usable_value hj y
    have hr : r = twoLaneVote d ls.history i j x y := by
      rcases hlanes with ⟨rfl, rfl, z, hz, rfl⟩ | ⟨rfl, rfl, z, hz, rfl⟩ | ⟨rfl, rfl, z, hz, rfl⟩
      · exact voteRow_lanes_0_1 hx hy hz
      · exact voteRow_lanes_0_2 hx hz hy
      · exact voteRow_lanes_1_2 hz hx hy
    obtain ⟨hwithin, hbeyond⟩ := isTwoLaneVote_twoLaneVote d ls.history i j x y
    rw [hr]
    refine ⟨hwithin, fun h => ?_⟩
    obtain ⟨hdisp, hunres, hnearer⟩ := hbeyond h
    refine ⟨hdisp, hunres, fun p hp => ?_⟩
    rw [show p = prediction ls.history from hp]
    exact hnearer

end Sys2Proof.Machine
end

section
/-! PROOFS. Mark tracking (chapter 2): the mark schedule (R24 to R27) and the perforation phase (R30 to R32). -/

namespace Sys2Proof.Machine

/-! ## The rising marks of a list (R25, R26) -/

/-- One comparison decides an entry, whether or not an entry was kept before it. -/
theorem keepRising_cons (prev : Option Nat) (m : Mark) (ms : List Mark) : keepRising prev (m :: ms) =
    if ∀ p ∈ prev, p < m.offset then m :: keepRising (some m.offset) ms else keepRising prev ms := by
  cases prev <;> simp [keepRising]

theorem keepRising_sublist (prev : Option Nat) (ms : List Mark) : (keepRising prev ms).Sublist ms := by
  induction ms generalizing prev with
  | nil => simp [keepRising]
  | cons m ms ih =>
    rw [keepRising_cons]
    split
    next => exact (ih _).cons_cons m
    next => exact (ih _).cons m

theorem prev_lt_of_mem_keepRising {prev : Option Nat} {p : Nat} (hp : p ∈ prev) {m : Mark} {ms : List Mark}
    (hm : m ∈ keepRising prev ms) : p < m.offset := by
  induction ms generalizing prev p with
  | nil => simp [keepRising] at hm
  | cons a ms ih =>
    rw [keepRising_cons] at hm
    split at hm
    next habove =>
      rcases List.mem_cons.1 hm with rfl | hm
      · exact habove p hp
      · exact (habove p hp).trans (ih rfl hm)
    next => exact ih hp hm

theorem keepRising_pairwise (prev : Option Nat) (ms : List Mark) :
    (keepRising prev ms).Pairwise (fun m n => m.offset < n.offset) := by
  induction ms generalizing prev with
  | nil => simp [keepRising]
  | cons m ms ih =>
    rw [keepRising_cons]
    split
    next => exact .cons (fun _ => prev_lt_of_mem_keepRising rfl) (ih _)
    next => exact ih _

/-- The comparison with the most recent entry kept is a comparison with all of them, as they rise. -/
theorem keepRising_append_singleton (prev : Option Nat) (ms : List Mark) (e : Mark) :
    keepRising prev (ms ++ [e]) = keepRising prev ms ++
      if (∀ p ∈ prev, p < e.offset) ∧ ∀ m ∈ keepRising prev ms, m.offset < e.offset then [e] else [] := by
  induction ms generalizing prev with
  | nil => simp [keepRising_cons, keepRising]
  | cons a ms ih =>
    rw [List.cons_append, keepRising_cons, keepRising_cons]
    split
    next habove =>
      have hprev : a.offset < e.offset → ∀ p ∈ prev, p < e.offset := fun h p hp => (habove p hp).trans h
      have hcond : ((∀ p ∈ prev, p < e.offset) ∧ ∀ m ∈ a :: keepRising (some a.offset) ms, m.offset < e.offset) ↔
          (∀ p ∈ some a.offset, p < e.offset) ∧ ∀ m ∈ keepRising (some a.offset) ms, m.offset < e.offset := by
        simpa using fun h _ => hprev h
      simp only [ih, hcond, List.cons_append]
    next => exact ih prev

/-! ## One class of the schedule (R24 to R26) -/

/-- The marks of class `c` that one pass keeps, at their absolute positions: what both lists of a schedule are. -/
def keptOfClass (start : Nat) (c : Mark → Bool) (marks : List Mark) : List Mark :=
  (keepRising none (marks.filter c)).map (atPosition start)

theorem accepted_buildSchedule (start count : Nat) (marks : List Mark) :
    (buildSchedule start count marks).accepted = keptOfClass start (inSpan count) marks := rfl

theorem lookAhead_buildSchedule (start count : Nat) (marks : List Mark) :
    (buildSchedule start count marks).lookAhead = keptOfClass start (isLookAhead count) marks := rfl

theorem inSpan_iff {count : Nat} {m : Mark} : inSpan count m = true ↔ m.offset < count := by
  simp [inSpan]

theorem isLookAhead_iff {count : Nat} {m : Mark} :
    isLookAhead count m = true ↔ count ≤ m.offset ∧ m.offset ≤ count + 4095 := by
  simp [isLookAhead]

section oneClass

variable {start : Nat} {c : Mark → Bool} {marks : List Mark}

theorem keptOfClass_pairwise : (keptOfClass start c marks).Pairwise (fun m n => m.offset < n.offset) :=
  List.pairwise_map.2 ((keepRising_pairwise none _).imp fun h => Nat.add_lt_add_left h start)

theorem exists_of_mem_keptOfClass {m : Mark} (h : m ∈ keptOfClass start c marks) :
    ∃ x ∈ marks, c x = true ∧ atPosition start x = m := by
  obtain ⟨x, hx, rfl⟩ := List.mem_map.1 h
  obtain ⟨hmem, hc⟩ := List.mem_filter.1 ((keepRising_sublist _ _).subset hx)
  exact ⟨x, hmem, hc, rfl⟩

theorem keptOfClass_append_singleton (e : Mark) : keptOfClass start c (marks ++ [e]) = keptOfClass start c marks ++
    if c e = true ∧ ∀ m ∈ keptOfClass start c marks, m.offset < start + e.offset then [atPosition start e] else [] := by
  by_cases hc : c e = true
  · simp [keptOfClass, keepRising_append_singleton, atPosition, hc, apply_ite]
  · simp [keptOfClass, hc]

end oneClass

/-! ## The entries ignored (R27) -/

theorem length_inSpan_add_length_isLookAhead_le (count : Nat) (marks : List Mark) :
    (marks.filter (inSpan count)).length + (marks.filter (isLookAhead count)).length ≤ marks.length := by
  have hdisjoint (m : Mark) (h : isLookAhead count m = true) : (!inSpan count m) = true := by
    simpa [inSpan] using (isLookAhead_iff.1 h).1
  calc
    _ ≤ (marks.filter (inSpan count)).length + (marks.filter (fun m => !inSpan count m)).length :=
      Nat.add_le_add_left (List.monotone_filter_right marks hdisjoint).length_le _
    _ = marks.length := (List.length_eq_length_filter_add _).symm

theorem length_accepted_add_length_lookAhead_add_marksIgnored (start count : Nat) (marks : List Mark) :
    (buildSchedule start count marks).accepted.length + (buildSchedule start count marks).lookAhead.length +
      marksIgnored count marks = marks.length := by
  have hin := (keepRising_sublist none (marks.filter (inSpan count))).length_le
  have hahead := (keepRising_sublist none (marks.filter (isLookAhead count))).length_le
  have hboth := length_inSpan_add_length_isLookAhead_le count marks
  simp only [buildSchedule, marksIgnored, List.length_map]
  omega

/-- Settles O47: the two lists are one pass over each class, and an entry is of one class at most. -/
theorem markScheduleBuilt : Obligations.MarkScheduleBuilt := by
  unfold Obligations.MarkScheduleBuilt
  intro start count marks
  rw [accepted_buildSchedule, lookAhead_buildSchedule]
  refine ⟨keptOfClass_pairwise, keptOfClass_pairwise, ?inSpan, ?ahead, ?acceptedNext, ?aheadNext,
    length_accepted_add_length_lookAhead_add_marksIgnored start count marks⟩
  case inSpan =>
    intro m hm
    obtain ⟨x, -, hx, rfl⟩ := exists_of_mem_keptOfClass hm
    have hlt := inSpan_iff.1 hx
    simp only [atPosition]
    omega
  case ahead =>
    intro m hm
    obtain ⟨x, -, hx, rfl⟩ := exists_of_mem_keptOfClass hm
    obtain ⟨hlo, hhi⟩ := isLookAhead_iff.1 hx
    simp only [atPosition]
    omega
  case acceptedNext =>
    intro e
    rw [accepted_buildSchedule, keptOfClass_append_singleton]
    simp only [inSpan_iff, atPosition]
  case aheadNext =>
    intro e
    rw [lookAhead_buildSchedule, keptOfClass_append_singleton]
    simp only [isLookAhead_iff, and_assoc, atPosition]

/-! ## The next mark (R30) -/

theorem nextMark_eq_of_accepted {sched : Schedule} {n : Nat} {m : Mark}
    (hsorted : sched.accepted.Pairwise (fun m n => m.offset < n.offset)) (hm : m ∈ sched.accepted) (hn : n < m.offset)
    (hleast : ∀ m' ∈ sched.accepted, n < m'.offset → m.offset ≤ m'.offset) : nextMark sched n = some m.offset := by
  have hsome : (sched.accepted.find? fun x => decide (n < x.offset)).isSome :=
    List.find?_isSome.2 ⟨m, hm, decide_eq_true hn⟩
  obtain ⟨first, hfirst⟩ := Option.isSome_iff_exists.1 hsome
  have hfirst_eq : first.offset = m.offset := by
    obtain ⟨habove, before, after, hsplit, hbefore⟩ := List.find?_eq_some_iff_append.1 hfirst
    have hle := hleast first (List.mem_of_find?_eq_some hfirst) (of_decide_eq_true habove)
    rw [hsplit] at hm hsorted
    obtain ⟨-, htail, -⟩ := List.pairwise_append.1 hsorted
    rcases List.mem_append.1 hm with hm | hm
    · simpa [hn] using hbefore m hm
    · rcases List.mem_cons.1 hm with rfl | hm
      · rfl
      · have hlt := List.rel_of_pairwise_cons htail hm
        omega
  simp [nextMark, hfirst, hfirst_eq]

theorem nextMark_eq_lookAhead {sched : Schedule} {n : Nat} (h : ∀ m ∈ sched.accepted, m.offset ≤ n) :
    nextMark sched n = sched.lookAhead.head?.map Mark.offset := by
  have hnone : (sched.accepted.find? fun m => decide (n < m.offset)) = none :=
    List.find?_eq_none.2 fun m hm => by simpa using h m hm
  simp [nextMark, hnone]

/-! ## The phase (R30 to R32) -/

section phase

variable {sched : Schedule} {ms : MarkState} {n p : Nat}

theorem phaseAt_of_pk_none (hp : ms.pk = none) : phaseAt sched ms n = none := by
  simp [phaseAt, hp]

theorem phaseAt_of_nextMark {q : Nat} (hp : ms.pk = some p) (hq : nextMark sched n = some q) :
    phaseAt sched ms n = some (64 * (n - p) / (q - p), false) := by
  simp [phaseAt, hp, hq]

theorem phaseAt_of_period_none (hq : nextMark sched n = none) (hl : ms.period = none) : phaseAt sched ms n = none := by
  cases hp : ms.pk <;> simp [phaseAt, hp, hq, hl]

theorem phaseAt_of_period {l : Nat} (hp : ms.pk = some p) (hq : nextMark sched n = none) (hl : ms.period = some l) :
    phaseAt sched ms n = some (min 63 (64 * (n - p) / l), decide (l ≤ n - p)) := by
  simp [phaseAt, hp, hq, hl]

theorem bin_le_63 {q : Nat} (hpn : p ≤ n) (hnq : n < q) : 64 * (n - p) / (q - p) ≤ 63 := by
  have hlt : 64 * (n - p) / (q - p) < 64 := (Nat.div_lt_iff_lt_mul (by omega)).2 (by omega)
  omega

end phase

/-- Settles O48: the phase by what the next mark is, if there is one. -/
theorem perforationPhase : Obligations.PerforationPhase := by
  unfold Obligations.PerforationPhase
  refine ⟨?knownNext, fun sched ms n => ⟨phaseAt_of_pk_none, ?noNext⟩⟩
  case knownNext =>
    intro sched ms n p q hp hpn hsorted hnext
    have hq : nextMark sched n = some q ∧ n < q := by
      rcases hnext with ⟨m, hm, rfl, hnq, hleast⟩ | ⟨hpassed, hnq, m, rest, hahead, rfl⟩
      · exact ⟨nextMark_eq_of_accepted hsorted hm hnq hleast, hnq⟩
      · exact ⟨by simp [nextMark_eq_lookAhead hpassed, hahead], hnq⟩
    obtain ⟨hq, hnq⟩ := hq
    exact ⟨phaseAt_of_nextMark hp hq, bin_le_63 hpn hnq⟩
  case noNext =>
    intro hpassed hahead
    have hq : nextMark sched n = none := by simp [nextMark_eq_lookAhead hpassed, hahead]
    exact ⟨phaseAt_of_period_none hq, fun p l hp hl => phaseAt_of_period hp hq hl⟩

end Sys2Proof.Machine
end

section
/-! PROOFS. Click classification (4.3, 4.4) and one sample through the front path (R62 to R67). -/

namespace Sys2Proof.Machine

/-! ## The residual (R63) -/

/-- A sample is not examined when it is void or fewer than two values stand before it. -/
theorem residual_eq_none {hist : List Sample} {u : Sample}
    (h : ∀ x y z rest, u = .value x → hist ≠ .value y :: .value z :: rest) : residual hist u = none := by
  unfold residual
  split
  · next x y z rest => exact absurd rfl (h x y z rest rfl)
  · rfl

@[simp] theorem residual_value (x y z : Int) (rest : List Sample) :
    residual (.value y :: .value z :: rest) (.value x) = some (x - 2 * y + z) := rfl

/-! ## Detection and the noise level (R62, R64, R65) -/

theorem detects_natAbs_iff {k floorF : Nat} {noise e : Int} :
    detects k floorF noise e.natAbs = true ↔ 128 * |e| > k * noise ∧ |e| > floorF := by
  simp only [detects, Bool.and_eq_true, decide_eq_true_eq, Int.abs_eq_natAbs, gt_iff_lt, Int.ofNat_lt]

theorem clampNoise_eq {nmin : Nat} (h : nmin ≤ 8388607) (x : Int) :
    clampNoise nmin x = max (16 * (nmin : Int)) (min (16 * 8388607) x) :=
  clampTo_eq _ _ x (show (16 * nmin : Int) ≤ 16 * 8388607 by omega)

theorem moveNoise_natAbs {nmin : Nat} (h : nmin ≤ 8388607) (e noise : Int) :
    moveNoise nmin e.natAbs noise =
      max (16 * (nmin : Int)) (min (16 * 8388607) (noise + (16 * |e| - noise + 32) / 64)) := by
  rw [moveNoise, clampNoise_eq h, Int.abs_eq_natAbs]

theorem moveNoise_bounds {nmin : Nat} (h : nmin ≤ 8388607) (a : Nat) (noise : Int) :
    16 * (nmin : Int) ≤ moveNoise nmin a noise ∧ moveNoise nmin a noise ≤ 16 * 8388607 := by
  rw [moveNoise, clampNoise_eq h]
  omega

/-! ## The classification (R64 to R66) -/

section classification

variable {p : Profile} {c : ClickState} {u : Sample} {unresolved bump : Bool} {e : Int}

theorem classify_not_examined (h : residual c.uHist u = none) : classify p c u unresolved bump =
    { absE := none, flagged := isVoid u || unresolved || bump, noise := c.noise } := by
  simp [classify, h]

theorem classify_detected (h : residual c.uHist u = some e)
    (hd : detects p.clickFactor p.clickFloor c.noise e.natAbs = true) :
    classify p c u unresolved bump = { absE := some e.natAbs, flagged := true, noise := c.noise } := by
  simp [classify, h, hd]

theorem classify_quiet (h : residual c.uHist u = some e)
    (hd : detects p.clickFactor p.clickFloor c.noise e.natAbs = false) : classify p c u unresolved bump =
    { absE := some e.natAbs, flagged := unresolved || bump, noise := moveNoise p.noiseMin e.natAbs c.noise } := by
  simp [classify, h, hd]

/-- Only a quiet sample moves the noise level, and the move is clamped (R62, R65). -/
theorem classify_noise_bounds (hlo : 16 * (p.noiseMin : Int) ≤ c.noise) (hhi : c.noise ≤ 16 * 8388607)
    (hmin : p.noiseMin ≤ 8388607) : 16 * (p.noiseMin : Int) ≤ (classify p c u unresolved bump).noise ∧
      (classify p c u unresolved bump).noise ≤ 16 * 8388607 := by
  cases h : residual c.uHist u with
  | none => rw [classify_not_examined h]; exact ⟨hlo, hhi⟩
  | some e =>
      cases hd : detects p.clickFactor p.clickFloor c.noise e.natAbs with
      | true => rw [classify_detected h hd]; exact ⟨hlo, hhi⟩
      | false => rw [classify_quiet h hd]; exact moveNoise_bounds hmin e.natAbs c.noise

end classification

/-! ## The front path (R67 steps 1 to 6) -/

section front

variable (sp : SpanInfo) (row : LaneRow) (r : Run)

/-- The vote, the lane state and the lane change of the position (R9). -/
def frontVote : Vote × LaneState × LaneChange :=
  combine r.ctx.profile.disputeTol r.ctx.profile.retireLimit row r.ctx.lanes

/-- The attributes and the mark state of the position (R28, R38). -/
def frontTrack : Attributes × MarkState :=
  track sp.sched r.ctx.profile.spliceWidth sp.start (lastPosition sp) sp.protectAll r.ctx.position r.ctx.marks

/-- The classification of the held record's value, with the vote's and the tracking's part in it. -/
def frontClassified : Classified :=
  classify r.ctx.profile r.ctx.click (frontStages sp row r).1.u (frontVote row r).1.unresolved (frontTrack sp r).1.bump

theorem frontStages_held : (frontStages sp row r).1 =
    { pos := r.ctx.position, span := sp.start, u := (frontStages sp row r).1.u
      unresolved := (frontVote row r).1.unresolved, prot := (frontTrack sp r).1.prot, bump := (frontTrack sp r).1.bump
      refEnd := (frontTrack sp r).1.refEnd, absE := (frontClassified sp row r).absE
      flagged := (frontClassified sp row r).flagged } := rfl

/-- The front path writes the lanes, the marks, the hum state, the click state, the position and the tallies of the context, and
the count of lane changes. -/
theorem frontStages_run : (frontStages sp row r).2 =
    { r with
      ctx := { r.ctx with
        lanes := (frontVote row r).2.1
        marks := (frontTrack sp r).2
        hum := (frontStages sp row r).2.ctx.hum
        click := holdSample (frontStages sp row r).1 (frontClassified sp row r).noise r.ctx.click
        position := r.ctx.position + 1
        tallies := (frontStages sp row r).2.ctx.tallies }
      laneChanges := (frontStages sp row r).2.laneChanges } := rfl

end front

/-- Settles O51: the classification by whether the sample is examined and detected, and the front path by what it holds and
writes. -/
theorem classificationAndNoise : Obligations.ClassificationAndNoise := by
  unfold Obligations.ClassificationAndNoise
  refine ⟨fun p c u unresolved bump hlo hhi hmin => ⟨classify_noise_bounds hlo hhi hmin, ?notExamined, ?examined⟩,
    fun sp row r => ?front⟩
  case notExamined =>
    intro h
    rw [classify_not_examined (residual_eq_none h)]
    simp [or_assoc]
  case examined =>
    rintro x y z rest rfl hhist
    have he : residual c.uHist (.value x) = some (x - 2 * y + z) := by rw [hhist, residual_value]
    rw [← detects_natAbs_iff, Bool.not_eq_true]
    cases hd : detects p.clickFactor p.clickFloor c.noise (x - 2 * y + z).natAbs with
    | true => simp [classify_detected he hd]
    | false => simp [classify_quiet he hd, moveNoise_natAbs hmin]
  case front =>
    have hheld := frontStages_held sp row r
    have hrun := frontStages_run sp row r
    refine ⟨congrArg Held.pos hheld, congrArg Held.span hheld, congrArg Held.unresolved hheld, congrArg Held.prot hheld,
      congrArg Held.bump hheld, congrArg Held.refEnd hheld, congrArg Held.absE hheld, congrArg Held.flagged hheld, ?_⟩
    rw [hrun]
    exact ⟨rfl, rfl, rfl, rfl, rfl, rfl, rfl, rfl, rfl, rfl, rfl⟩

end Sys2Proof.Machine
end

section
/-! PROOFS. One sample through the Hiss Expander (R91, R92, R94 to R100). -/

namespace Sys2Proof.Machine

/-! ## Rounded moves (R95, R96) -/

/-- The move of R95 and R96 from `y` towards `t`, by a `2 ^ k`-th of the way rounded half up, does not pass `t`: it stays between
bounds of both. -/
theorem roundedMove_bounds {k : Nat} {lo hi y t : Int} (hk : 1 ≤ k) (hy : lo ≤ y ∧ y ≤ hi) (ht : lo ≤ t ∧ t ≤ hi) :
    lo ≤ y + (t - y + 2 ^ (k - 1)) / 2 ^ k ∧ y + (t - y + 2 ^ (k - 1)) / 2 ^ k ≤ hi := by
  obtain ⟨j, rfl⟩ := Nat.exists_eq_add_of_le' hk
  have hm : (1 : Int) ≤ 2 ^ j := one_le_pow₀ (by decide)
  rw [Nat.add_sub_cancel, pow_succ]
  generalize (2 : Int) ^ j = m at hm
  have hpos : 0 < m * 2 := by omega
  rcases le_total y t with hle | hle
  · have hlow : 0 ≤ (t - y + m) / (m * 2) := Int.ediv_nonneg (by omega) hpos.le
    have hhigh : (t - y + m) / (m * 2) < t - y + 1 := Int.ediv_lt_of_lt_mul hpos (by nlinarith)
    omega
  · have hlow : t - y ≤ (t - y + m) / (m * 2) := Int.le_ediv_of_mul_le hpos (by nlinarith)
    have hhigh : (t - y + m) / (m * 2) < 1 := Int.ediv_lt_of_lt_mul hpos (by omega)
    omega

/-- The tracker stays in its range (R92, R95). -/
theorem moveLow_bounds {a : Nat} {x low : Int} (ha : 1 ≤ a) (hx : InRange x)
    (hlow : -2147483392 ≤ low ∧ low ≤ 2147483392) :
    -2147483392 ≤ moveLow a x low ∧ moveLow a x low ≤ 2147483392 := by
  obtain ⟨hlo, hhi⟩ := hx
  exact roundedMove_bounds ha hlow (by omega)

/-- The envelope stays in its range while the high part is the difference of two values of the internal range (R92, R96). -/
theorem moveEnv_bounds {r : Nat} {high env : Int} (hr : 1 ≤ r) (hhigh : |high| ≤ 16777214)
    (henv : 0 ≤ env ∧ env ≤ 4294966784) : 0 ≤ moveEnv r high env ∧ moveEnv r high env ≤ 4294966784 := by
  rw [Int.abs_eq_natAbs] at hhigh
  exact roundedMove_bounds hr henv (by omega)

theorem moveLow_eq_fdiv (a : Nat) (x low : Int) :
    moveLow a x low = low + (256 * x - low + 2 ^ (a - 1)).fdiv (2 ^ a) := by
  rw [moveLow, Int.fdiv_eq_ediv_of_nonneg _ (by positivity)]

theorem moveEnv_eq_fdiv (r : Nat) (high env : Int) :
    moveEnv r high env = env + (256 * |high| - env + 2 ^ (r - 1)).fdiv (2 ^ r) := by
  rw [moveEnv, Int.fdiv_eq_ediv_of_nonneg _ (by positivity), Int.abs_eq_natAbs]

/-! ## The hiss gain (R97) -/

theorem hissGain_of_reached {gmin : Nat} {env th : Int} (h : th = 0 ∨ th ≤ env) : hissGain gmin env th = 256 := by
  unfold hissGain
  rcases h with rfl | h
  · rfl
  · rw [if_pos h, ite_self]

theorem hissGain_of_below {gmin : Nat} {env th : Int} (h0 : th ≠ 0) (h : env < th) :
    hissGain gmin env th = max (gmin : Int) (256 * env / th) := by
  rw [hissGain, if_neg h0, if_neg (by omega)]

theorem hissGain_bounds {gmin : Nat} {env th : Int} (hg : gmin ≤ 256) (hth : 0 ≤ th) :
    (gmin : Int) ≤ hissGain gmin env th ∧ hissGain gmin env th ≤ 256 := by
  by_cases h : th = 0 ∨ th ≤ env
  · rw [hissGain_of_reached h]; omega
  · obtain ⟨h0, hlt⟩ := not_or.mp h
    have hq : 256 * env / th ≤ 256 := Int.ediv_le_of_le_mul (by omega) (by omega)
    rw [hissGain_of_below h0 (by omega)]
    omega

/-! ## The expanded value and its clamp (R98) -/

theorem clampSample_eq (x : Int) : clampSample x = max (-8388607) (min 8388607 x) :=
  clampTo_eq (-8388607) 8388607 x (by decide)

theorem clampSample_ne_iff (x : Int) : clampSample x ≠ x ↔ x < -8388607 ∨ 8388607 < x := by
  rw [clampSample_eq]; omega

/-! ## Before the sample: the parameter switch and the threshold (R91, R100) -/

theorem switchParams_same {span : Nat} {h : HissState} (hs : h.prevSpan = some span) : switchParams span h = h :=
  if_pos hs

theorem switchParams_other {span : Nat} {h : HissState} (hs : h.prevSpan ≠ some span) : switchParams span h =
    { h with prevSpan := some span, inUse := h.pendingParams.getD h.inUse, pendingParams := none } :=
  if_neg hs

theorem switchParams_prevSpan (span : Nat) (h : HissState) : (switchParams span h).prevSpan = some span := by
  by_cases hs : h.prevSpan = some span
  · rw [switchParams_same hs, hs]
  · rw [switchParams_other hs]

/-- The switch leaves the tracker, the envelope and the threshold. -/
theorem switchParams_signal (span : Nat) (h : HissState) : (switchParams span h).low = h.low ∧
    (switchParams span h).env = h.env ∧ (switchParams span h).th = h.th := by
  by_cases hs : h.prevSpan = some span
  · simp [switchParams_same hs]
  · simp [switchParams_other hs]

/-- The parameters in use after the switch are limited when those in use and those pending were (R90, R91). -/
theorem hissLimited_switchParams {span : Nat} {h : HissState} (huse : HissLimited h.inUse)
    (hpend : ∀ p, h.pendingParams = some p → HissLimited p) : HissLimited (switchParams span h).inUse := by
  by_cases hs : h.prevSpan = some span
  · rwa [switchParams_same hs]
  · rw [switchParams_other hs]
    cases hp : h.pendingParams with
    | none => exact huse
    | some q => exact hpend q hp

theorem learnedThreshold_eq {p : HissParams} (hp : p.thMin ≤ p.thMax) (env : Int) : learnedThreshold p env =
    max (256 * (p.thMin : Int)) (min (256 * (p.thMax : Int)) ((env * p.refMult).fdiv 4)) := by
  rw [learnedThreshold, clampTo_eq _ _ _ (by omega), Int.fdiv_eq_ediv_of_nonneg _ (by decide)]

/-- The state that a sample meets: after the switch (R91) and, with a reference-frame end attribute, the learned threshold
(R100). -/
def hissReady (span : Nat) (refEnd : Bool) (h : HissState) : HissState :=
  { switchParams span h with
    th := if refEnd then learnedThreshold (switchParams span h).inUse h.env else h.th }

theorem hissReady_eq (span : Nat) (refEnd : Bool) (h : HissState) : hissReady span refEnd h =
    if refEnd then { switchParams span h with th := learnedThreshold (switchParams span h).inUse (switchParams span h).env }
    else switchParams span h := by
  obtain ⟨-, henv, hth⟩ := switchParams_signal span h
  cases refEnd with
  | true => simp [hissReady, henv]
  | false => simp [hissReady, ← hth]

/-- Before the sample the ranges hold again (R92). -/
theorem hissHolds_hissReady {span : Nat} {h : HissState} (hh : HissHolds h)
    (hlim : HissLimited (switchParams span h).inUse) (refEnd : Bool) : HissHolds (hissReady span refEnd h) := by
  obtain ⟨hlow, henv, hth⟩ := hh
  obtain ⟨elow, eenv, -⟩ := switchParams_signal span h
  refine ⟨elow.symm ▸ hlow, eenv.symm ▸ henv, ?_⟩
  obtain ⟨-, -, -, -, hle, hmax, -⟩ := hlim
  cases refEnd with
  | false => exact hth
  | true => simp only [hissReady, if_true, learnedThreshold_eq hle]; omega

/-! ## One sample (R94) -/

/-- The high part of a value: what the tracker's new low leaves of it (R95). -/
def hissHigh (h : HissState) (x : Int) : Int :=
  x - (moveLow h.inUse.splitShift x h.low + 128) / 256

/-- The state after a value: the tracker and the envelope have moved (R95, R96). -/
def hissMoved (h : HissState) (x : Int) : HissState :=
  { h with low := moveLow h.inUse.splitShift x h.low, env := moveEnv h.inUse.envShift (hissHigh h x) h.env }

/-- The expanded value before its clamp, from the state before the value (R97, R98). -/
def hissExpanded (h : HissState) (x : Int) : Int :=
  expand (x - hissHigh h x) (hissHigh h x) (hissGain h.inUse.gainFloor (hissMoved h x).env h.th)

theorem hissSample_void (span : Nat) (refEnd : Bool) (o : VoidOrigin) (h : HissState) :
    hissSample span refEnd (.void o) h = (.void o, false, hissReady span refEnd h) := by
  rw [hissReady_eq]; rfl

theorem hissSample_value (span : Nat) (refEnd : Bool) (x : Int) (h : HissState) :
    hissSample span refEnd (.value x) h =
      (.value (clampSample (hissExpanded (hissReady span refEnd h) x)),
        decide (clampSample (hissExpanded (hissReady span refEnd h) x) ≠ hissExpanded (hissReady span refEnd h) x),
        hissMoved (hissReady span refEnd h) x) := by
  simp only [hissExpanded, hissHigh, sub_sub_cancel, hissReady_eq]; rfl

/-- A value keeps the ranges (R92). -/
theorem hissHolds_hissMoved {h : HissState} {x : Int} (hh : HissHolds h) (hlim : HissLimited h.inUse) (hx : InRange x) :
    HissHolds (hissMoved h x) := by
  obtain ⟨hlow, henv, hth⟩ := hh
  obtain ⟨⟨ha, -⟩, ⟨hr, -⟩, -⟩ := hlim
  have hlow' := moveLow_bounds ha hx hlow
  have hhigh : |hissHigh h x| ≤ 16777214 := by
    obtain ⟨hlo, hhi⟩ := hx
    rw [abs_le, hissHigh]
    omega
  exact ⟨hlow', moveEnv_bounds (by omega) hhigh henv, hth⟩

/-- The frame of a sample: beyond the switch and the threshold it writes the tracker and the envelope only. -/
theorem hissSample_frame (span : Nat) (refEnd : Bool) (w : Sample) (h : HissState) :
    (hissSample span refEnd w h).2.2 = { hissReady span refEnd h with
      low := (hissSample span refEnd w h).2.2.low, env := (hissSample span refEnd w h).2.2.env } := by
  cases w with
  | void o => rw [hissSample_void]
  | value x => rw [hissSample_value]; rfl

/-- A sample keeps the ranges, and what it gives is a sample (R92, R98). -/
theorem hissSample_holds {span : Nat} {refEnd : Bool} {w : Sample} {h : HissState} (hw : SampleHolds w)
    (hready : HissHolds (hissReady span refEnd h)) (hlim : HissLimited (switchParams span h).inUse) :
    SampleHolds (hissSample span refEnd w h).1 ∧ HissHolds (hissSample span refEnd w h).2.2 := by
  cases w with
  | void o => rw [hissSample_void]; exact ⟨trivial, hready⟩
  | value x => rw [hissSample_value]; exact ⟨inRange_clampSample _, hissHolds_hissMoved hready hlim hw⟩

/-- Settles O56: the switch and the threshold before the sample by whether the span is another and whether a reference frame
ends, the signal by whether the sample is a value, and the gain by whether the envelope reaches the threshold. -/
theorem hissExpansion : Obligations.HissExpansion := by
  unfold Obligations.HissExpansion
  refine ⟨fun span refEnd w h hw hh huse hpend => ?sample, fun gmin env th hg _ hth =>
    ⟨hissGain_of_reached, ?quotient, hissGain_bounds hg hth⟩⟩
  case quotient =>
    intro h0 hlt
    exact ⟨256 * env / th, Int.ediv_mul_le _ h0, Int.lt_ediv_add_one_mul_self _ (by omega), hissGain_of_below h0 hlt⟩
  case sample =>
    have hlim : HissLimited (switchParams span h).inUse := hissLimited_switchParams huse hpend
    obtain ⟨hsample, hholds⟩ := hissSample_holds hw (hissHolds_hissReady hh hlim refEnd) hlim
    obtain ⟨elow, eenv, -⟩ := switchParams_signal span h
    have hframe := hissSample_frame span refEnd w h
    have hinUse : (hissSample span refEnd w h).2.2.inUse = (switchParams span h).inUse := by rw [hframe]; rfl
    have hpending : (hissSample span refEnd w h).2.2.pendingParams = (switchParams span h).pendingParams := by
      rw [hframe]; rfl
    have hth : (hissSample span refEnd w h).2.2.th = (hissReady span refEnd h).th := by rw [hframe]
    refine ⟨hsample, hholds, hinUse ▸ hlim, ?prevSpan, ?same, ?other, ?kept, ?learned, ?void, ?value⟩
    case prevSpan => rw [hframe]; exact switchParams_prevSpan span h
    case same => intro hs; rw [hinUse, hpending, switchParams_same hs]; exact ⟨rfl, rfl⟩
    case other =>
      intro hs
      rw [hinUse, hpending, switchParams_other hs]
      cases h.pendingParams <;> exact ⟨rfl, rfl⟩
    case kept => rintro rfl; exact hth
    case learned =>
      rintro rfl
      obtain ⟨-, -, -, -, hle, -⟩ := hlim
      rw [hth, hinUse]
      exact learnedThreshold_eq hle h.env
    case void => rintro o rfl; rw [hissSample_void]; exact ⟨rfl, rfl, elow, eenv⟩
    case value =>
      rintro x rfl low high o hl hhi ho
      rw [hissSample_value] at hl ho ⊢
      have hhigh : hissHigh (hissReady span refEnd h) x = high := by
        rw [hhi, hl, Int.fdiv_eq_ediv_of_nonneg _ (by decide)]; rfl
      have hexpanded : hissExpanded (hissReady span refEnd h) x = o := by
        rw [ho, Int.fdiv_eq_ediv_of_nonneg _ (by decide), hissExpanded, hhigh, hhi, sub_sub_cancel]; rfl
      rw [hexpanded]
      refine ⟨?_, ?_, congrArg Sample.value (clampSample_eq o), by rw [decide_eq_true_iff, clampSample_ne_iff]⟩
      · rw [← elow]; exact moveLow_eq_fdiv _ x _
      · rw [← eenv, ← hhigh]; exact moveEnv_eq_fdiv _ _ _

end Sys2Proof.Machine
end

section
/-! PROOFS. COMMAND_DISPATCH (R117, R185) and POLL (R129). -/

namespace Sys2Proof.Machine

/-! ## COMMAND_DISPATCH (R117, R185) -/

theorem exec_commandDispatch (s : State) : exec .commandDispatch s = execCommandDispatch s := rfl

theorem Dispatches.code_eq {s : State} {k : StreamId} {code : BitVec 3} (h : Dispatches s k code) : s.cmd.code = code := by
  obtain ⟨-, -, hcode, -⟩ := h
  exact hcode

theorem streamOf?_eq_some {f : BitVec 4} {k : StreamId} (h : f.toNat = k.val) : streamOf? f = some k := by
  have hlt : f.toNat < 12 := h ▸ k.isLt
  rw [streamOf?, dif_pos hlt]
  exact congrArg some (Fin.ext h)

theorem dispatchStream_eq_some {s : State} {k : StreamId} {code : BitVec 3} (h : Dispatches s k code) :
    dispatchStream s = some k := by
  obtain ⟨hpending, hstream, -, hfree⟩ := h
  rw [← inTransition_iff] at hfree
  rw [dispatchStream, if_pos hpending, streamOf?_eq_some hstream]
  exact if_neg hfree

theorem exec_commandDispatch_of_dispatches {s : State} {k : StreamId} {code : BitVec 3} (h : Dispatches s k code) :
    exec .commandDispatch s = .next (dispatchTo k s) := by
  rw [exec_commandDispatch, execCommandDispatch, dispatchStream_eq_some h]

/-- An accepted command takes effect on the state that shows it as accepted, and what can then be issued is issued. -/
theorem dispatchTo_of_accepted {s : State} {k : StreamId} (h : judge s.cmd.code s.cmd.tag (s.stream k) = .accepted) :
    dispatchTo k s = drain (perform s.cmd k (s.judged .accepted)) := by
  rw [dispatchTo, h]
  exact if_pos rfl

/-- A refused command changes nothing but its result. -/
theorem dispatchTo_of_refused {s : State} {k : StreamId} (h : judge s.cmd.code s.cmd.tag (s.stream k) ≠ .accepted) :
    dispatchTo k s = s.judged (judge s.cmd.code s.cmd.tag (s.stream k)) :=
  if_neg h

/-! ## POLL (R129) -/

theorem judge_poll (tag : BitVec 16) (x : Stream) : judge 6#3 tag x = acceptIf (x.state != .opening) := rfl

theorem judge_poll_of_opening {tag : BitVec 16} {x : Stream} (h : x.state = .opening) :
    judge 6#3 tag x = .refusedState := by
  rw [judge_poll, h]; rfl

theorem judge_poll_of_ne_opening {tag : BitVec 16} {x : Stream} (h : x.state ≠ .opening) :
    judge 6#3 tag x = .accepted := by
  rw [judge_poll, bne_iff_ne.2 h]; rfl

theorem perform_poll {c : CmdReg} (h : c.code = 6#3) (k : StreamId) (s : State) : perform c k s = acceptPoll k s := by
  rw [perform, h]; rfl

theorem acceptPoll_of_not_waiting {k : StreamId} {s : State} (h : (s.stream k).state ≠ .awaitLink) :
    acceptPoll k s = s :=
  if_neg h

theorem acceptPoll_of_reading {k : StreamId} {s : State} (h : (s.stream k).state = .awaitLink)
    (hr : waitReading s k = true) : acceptPoll k s = s.setStream k { s.stream k with pollAgain := true } := by
  rw [acceptPoll, if_pos h, if_pos hr]; rfl

theorem acceptPoll_of_idle {k : StreamId} {s : State} (h : (s.stream k).state = .awaitLink)
    (hr : waitReading s k ≠ true) :
    acceptPoll k s = s.setStream k { s.stream k with timer := none, readDue := true } := by
  rw [acceptPoll, if_pos h, if_neg hr]; rfl

/-- All that an accepted POLL can do. -/
theorem acceptPoll_judged (s : State) (r : CmdResult) (k : StreamId) : acceptPoll k (s.judged r) =
    if (s.stream k).state ≠ .awaitLink then s.judged r
    else if waitReading s k = true then (s.judged r).setStream k { s.stream k with pollAgain := true }
    else (s.judged r).setStream k { s.stream k with timer := none, readDue := true } := by
  by_cases hwait : (s.stream k).state = .awaitLink
  · rw [if_neg (not_not_intro hwait)]
    by_cases hread : waitReading s k = true
    · rw [if_pos hread]
      exact acceptPoll_of_reading (s := s.judged r) hwait hread
    · rw [if_neg hread]
      exact acceptPoll_of_idle (s := s.judged r) hwait hread
  · rw [if_pos hwait]
    exact acceptPoll_of_not_waiting (s := s.judged r) hwait

/-- Settles O16: the judgement by whether the stream is OPENING; what an accepted POLL does is `acceptPoll_judged`. -/
theorem pollRereadsAtOnce : Obligations.PollRereadsAtOnce := by
  unfold Obligations.PollRereadsAtOnce
  intro s k hd
  have hcode := hd.code_eq
  rw [exec_commandDispatch_of_dispatches hd]
  refine ⟨fun hopening => ?refused, fun hnot => ?accepted⟩
  case refused =>
    have hjudge : judge s.cmd.code s.cmd.tag (s.stream k) = .refusedState := hcode ▸ judge_poll_of_opening hopening
    rw [dispatchTo_of_refused (by rw [hjudge]; decide), hjudge]
  case accepted =>
    have hjudge : judge s.cmd.code s.cmd.tag (s.stream k) = .accepted := hcode ▸ judge_poll_of_ne_opening hnot
    rw [dispatchTo_of_accepted hjudge, perform_poll hcode, acceptPoll_judged]

end Sys2Proof.Machine
end

section
/-! PROOFS. A take that fails at its header (R125, R126, R144 to R146). -/

namespace Sys2Proof.Machine

/-! ## The checks of R145 -/

theorem bufferAddrOk_iff (addr : Nat) : bufferAddrOk addr = true ↔ addr ≠ 0 ∧ addr % 4 = 0 := by
  simp [bufferAddrOk]

theorem laneAddrs_bufferAddrOk_iff (n : LaneCount) (h : Header) : (laneAddrs n h).all bufferAddrOk = true ↔
    (h.lane0 ≠ 0 ∧ h.lane0 % 4 = 0) ∧
      (n = .three → (h.lane1 ≠ 0 ∧ h.lane1 % 4 = 0) ∧ h.lane2 ≠ 0 ∧ h.lane2 % 4 = 0) := by
  cases n with
  | one => simp [laneAddrs, bufferAddrOk_iff]
  | three => simp [laneAddrs, bufferAddrOk_iff]

/-- A buffer that is not there needs no address. -/
theorem countedBufferOk_iff (count limit addr : Nat) :
    (decide (count ≤ limit) && (count == 0 || bufferAddrOk addr)) = true ↔
      count ≤ limit ∧ (count ≠ 0 → addr ≠ 0 ∧ addr % 4 = 0) := by
  rw [Bool.and_eq_true, decide_eq_true_iff, Bool.or_eq_true, beq_iff_eq, bufferAddrOk_iff, or_iff_not_imp_left]

theorem headerValid_iff (n : LaneCount) (h : Header) : headerValid n h = true ↔
    ((256 ≤ h.count ∨ h.last = true ∧ 1 ≤ h.count) ∧ h.count ≤ 65536) ∧
    (h.markCount ≤ 512 ∧ (h.markCount ≠ 0 → h.marksAddr ≠ 0 ∧ h.marksAddr % 4 = 0)) ∧
    (h.logCapacity ≤ 4096 ∧ (h.logCapacity ≠ 0 → h.logAddr ≠ 0 ∧ h.logAddr % 4 = 0)) ∧
    (h.lane0 ≠ 0 ∧ h.lane0 % 4 = 0) ∧
    (n = .three → (h.lane1 ≠ 0 ∧ h.lane1 % 4 = 0) ∧ h.lane2 ≠ 0 ∧ h.lane2 % 4 = 0) ∧
    (h.outputAddr ≠ 0 ∧ h.outputAddr % 4 = 0) ∧ (h.profileAddr = 0 ∨ h.profileAddr % 64 = 0) := by
  have hcount : (decide (h.count ≤ 65536) && (decide (256 ≤ h.count) || (h.last && decide (1 ≤ h.count)))) = true ↔
      (256 ≤ h.count ∨ h.last = true ∧ 1 ≤ h.count) ∧ h.count ≤ 65536 := by
    simp [and_comm]
  have hprofile : (h.profileAddr == 0 || h.profileAddr % 64 == 0) = true ↔
      h.profileAddr = 0 ∨ h.profileAddr % 64 = 0 := by
    rw [Bool.or_eq_true, beq_iff_eq, beq_iff_eq]
  simp only [headerValid, Bool.and_eq_true (_ && _), hcount, countedBufferOk_iff, laneAddrs_bufferAddrOk_iff,
    bufferAddrOk_iff, hprofile, and_assoc]

/-! ## The failure of a take (R125, R126) -/

/-- A stream after its take has failed: halted where the failure is recorded (R125), else as it was (R126). -/
def takeFailed (k : StreamId) (h : Halt) (x : Stream) : Stream :=
  if recordsFailure x.state = true then enterHalting k h x else x

theorem takeFailed_halts {k : StreamId} {h : Halt} {x : Stream} (hx : recordsFailure x.state = true) :
    HaltsWith h x (takeFailed k h x) := by
  rw [takeFailed, if_pos hx]
  exact enterHalting_halts k h x

theorem takeFailed_of_not_records {k : StreamId} {h : Halt} {x : Stream} (hx : recordsFailure x.state = false) :
    takeFailed k h x = x :=
  if_neg (by simp [hx])

theorem recordsFailure_of_rolling {st : StreamState} (h : st = .aborting ∨ st = .halting) :
    recordsFailure st = false := by
  rcases h with rfl | rfl <;> rfl

/-- A failing take ends its fetch and touches its stream alone. -/
theorem failTake_eq (k : StreamId) (addr : Nat) (echo : Seq) (code : Completion) (s : State) :
    failTake k addr echo code s =
      (endFetch s).setStream k (takeFailed k (takeHalt addr code echo (s.stream k)) (s.stream k)) := by
  cases hs : recordsFailure (s.stream k).state with
  | true =>
    rw [takeFailed, if_pos hs]
    exact failSpan_of_records k _ (endFetch s) hs
  | false =>
    rw [takeFailed_of_not_records hs]
    exact (failSpan_of_not_records k _ (endFetch s) hs).trans (State.setStream_stream (endFetch s) k).symm

/-- What a halt says does not depend on the skip request before it. -/
theorem HaltsWith.of_skip {h : Halt} {x y : Stream} {v : Option Nat} (hy : HaltsWith h { x with skip := v } y) :
    HaltsWith h x y :=
  hy

/-- What a halt says does not depend on the halted stream's write queue. -/
theorem HaltsWith.of_apart {h : Halt} {x y z : Stream} (hy : HaltsWith h x y) (hz : z.apart = y.apart) :
    HaltsWith h x z := by
  simp only [HaltsWith] at hy ⊢
  rwa [Stream.state_of_apart hz, Stream.failing_of_apart hz, Stream.halt_of_apart hz, Stream.skip_of_apart hz,
    Stream.timer_of_apart hz, Stream.readDue_of_apart hz, Stream.chain_of_apart hz, Stream.staging_of_apart hz,
    Stream.tag_of_apart hz, Stream.taken_of_apart hz, Stream.ctx_of_apart hz, Stream.slot0_of_apart hz,
    Stream.slot1_of_apart hz, Stream.counters_of_apart hz, Stream.position_of_apart hz, Stream.schedule_of_apart hz,
    Stream.takes_of_apart hz]

theorem SameHoldings.of_skip {x y : Stream} {v : Option Nat} (h : SameHoldings { x with skip := v } y) :
    SameHoldings x y where
  ctx := h.ctx
  schedule := h.schedule
  slot0 := h.slot0
  slot1 := h.slot1
  counters := h.counters
  progressAddr := h.progressAddr
  openCode := h.openCode

theorem sameHoldings_of_apart {x y : Stream} (h : y.apart = x.apart) : SameHoldings x y where
  ctx := Stream.ctx_of_apart h
  schedule := Stream.schedule_of_apart h
  slot0 := Stream.slot0_of_apart h
  slot1 := Stream.slot1_of_apart h
  counters := Stream.counters_of_apart h
  progressAddr := Stream.progressAddr_of_apart h
  openCode := Stream.openCode_of_apart h

/-! ## HEADER_READ_DONE (R144) -/

theorem exec_headerReadDone (data : ReadResult) (s : State) :
    exec (.headerReadDone data) s = execHeaderReadDone data s := rfl

theorem validData_of_length {n : Nat} {bytes : List Byte} (h : bytes.length = n) :
    validData n (some bytes) = some bytes :=
  if_pos h

theorem exec_headerReadDone_none {s : State} {k : StreamId} {a : Nat}
    (hf : s.fetch = some { stream := k, phase := .header a }) :
    exec (.headerReadDone none) s = .next (drain (failTake k a 0 .descFault s)) := by
  rw [exec_headerReadDone, execHeaderReadDone, hf]; rfl

theorem exec_headerReadDone_some {s : State} {k : StreamId} {a : Nat} {bytes : List Byte}
    (hf : s.fetch = some { stream := k, phase := .header a }) (hlen : bytes.length = 128) :
    exec (.headerReadDone (some bytes)) s = .next (drain (onHeader k a (parseHeader bytes) s)) := by
  rw [exec_headerReadDone, execHeaderReadDone, hf]
  simp only [validData_of_length hlen]

theorem onHeader_of_posted {k : StreamId} {a : Nat} {h : Header} {s : State} (hp : h.state = 1) :
    onHeader k a h s = takeHeader k a h s :=
  if_pos hp

/-- The state with the stream's skip request replaced. -/
def withSkip (k : StreamId) (v : Option Nat) (s : State) : State :=
  s.setStream k { s.stream k with skip := v }

theorem withSkip_own (k : StreamId) (s : State) : withSkip k (s.stream k).skip s = s :=
  State.setStream_stream s k

/-- The skip request once a header at `a` has read POSTED (R154). -/
def skipAfterPosted (a : Nat) (x : Stream) : Option Nat :=
  if x.skip = some a then none else x.skip

/-- The checks of a POSTED header in their order: those of R145, then the sequence (R146). The skip request for its span is
absent by then (R154). -/
theorem takeHeader_eq (k : StreamId) (a : Nat) (h : Header) (s : State) : takeHeader k a h s =
    if headerValid (streamLanes (s.stream k)) h = false then
      failTake k a h.sequence .descInvalid (withSkip k (skipAfterPosted a (s.stream k)) s)
    else if sequenceOk (s.stream k).chain.expected h.sequence = false then
      failTake k a h.sequence .sequence (withSkip k (skipAfterPosted a (s.stream k)) s)
    else takeMarks k a h (withSkip k (skipAfterPosted a (s.stream k)) s) := by
  have hskip : onStream k (fun x => if x.skip = some a then { x with skip := none } else x) s =
      withSkip k (skipAfterPosted a (s.stream k)) s := by
    rw [onStream, withSkip, skipAfterPosted]
    by_cases h : (s.stream k).skip = some a
    · rw [if_pos h, if_pos h]
    · rw [if_neg h, if_neg h]
  rw [← hskip]; rfl

theorem takeHeader_of_invalid {k : StreamId} {a : Nat} {h : Header} {s : State}
    (hv : headerValid (streamLanes (s.stream k)) h = false) : takeHeader k a h s =
      failTake k a h.sequence .descInvalid (withSkip k (skipAfterPosted a (s.stream k)) s) := by
  rw [takeHeader_eq, if_pos hv]

theorem sequenceOk_some (e sequence : Seq) : sequenceOk (some e) sequence = (e == sequence) := rfl

theorem takeHeader_of_wrong_sequence {k : StreamId} {a : Nat} {h : Header} {s : State} {e : Seq}
    (hv : headerValid (streamLanes (s.stream k)) h = true) (he : (s.stream k).chain.expected = some e)
    (hne : e ≠ h.sequence) : takeHeader k a h s =
      failTake k a h.sequence .sequence (withSkip k (skipAfterPosted a (s.stream k)) s) := by
  have hseq : sequenceOk (s.stream k).chain.expected h.sequence = false := by
    rw [he, sequenceOk_some, beq_eq_false_iff_ne]
    exact hne
  rw [takeHeader_eq, if_neg (by simp [hv]), if_pos hseq]

/-! ## The frame of a failed take -/

section frame

variable (k : StreamId) (v : Option Nat) (a : Nat) (echo : Seq) (code : Completion) (s : State)

theorem othersKept_takeFails : OthersKept k s (drain (failTake k a echo code (withSkip k v s))) :=
  othersKept_drain ((othersKept_onStream k (fun x => { x with skip := v }) s).trans (othersKept_failTake k a echo code _))

theorem takeFails_fetch : (drain (failTake k a echo code (withSkip k v s))).fetch = none := by
  simp [failTake_eq]

theorem takeFails_cmd : (drain (failTake k a echo code (withSkip k v s))).cmd = s.cmd := by
  simp [failTake_eq, withSkip]

theorem sameStatus_takeFails : SameStatus s (drain (failTake k a echo code (withSkip k v s))) := by
  constructor <;> simp [failTake_eq, withSkip]

theorem sameEvents_takeFails : SameEvents s (drain (failTake k a echo code (withSkip k v s))) := by
  constructor <;> simp [failTake_eq, withSkip]

theorem sameAround_takeFails : SameAround s (drain (failTake k a echo code (withSkip k v s))) := by
  constructor
  case control => constructor <;> simp [failTake_eq, withSkip]
  case setup => constructor <;> simp [failTake_eq, withSkip]
  all_goals simp [failTake_eq, withSkip]

/-- The stream itself, but for its write queue. -/
theorem takeFails_apart : ((drain (failTake k a echo code (withSkip k v s))).stream k).apart =
    (takeFailed k (takeHalt a code echo (s.stream k)) { s.stream k with skip := v }).apart := by
  rw [drain_apart, failTake_eq, State.stream_setStream_self, withSkip, State.stream_setStream_self]
  rfl

end frame

section outcome

variable {k : StreamId} {v : Option Nat} {a : Nat} {echo : Seq} {code : Completion} {s : State}

theorem takeFails_halts (hrec : recordsFailure (s.stream k).state = true) :
    HaltsWith (takeHalt a code echo (s.stream k)) (s.stream k)
      ((drain (failTake k a echo code (withSkip k v s))).stream k) := by
  have hhalts : HaltsWith (takeHalt a code echo (s.stream k)) { s.stream k with skip := v }
      (takeFailed k (takeHalt a code echo (s.stream k)) { s.stream k with skip := v }) := takeFailed_halts hrec
  exact (hhalts.of_apart (takeFails_apart k v a echo code s)).of_skip

theorem takeFails_kept (hroll : (s.stream k).state = .aborting ∨ (s.stream k).state = .halting) :
    ((drain (failTake k a echo code (withSkip k v s))).stream k).state = (s.stream k).state ∧
      ((drain (failTake k a echo code (withSkip k v s))).stream k).failing = (s.stream k).failing ∧
      ((drain (failTake k a echo code (withSkip k v s))).stream k).taken = (s.stream k).taken ∧
      SameHoldings (s.stream k) ((drain (failTake k a echo code (withSkip k v s))).stream k) := by
  have hkept : takeFailed k (takeHalt a code echo (s.stream k)) { s.stream k with skip := v } =
      { s.stream k with skip := v } := takeFailed_of_not_records (recordsFailure_of_rolling hroll)
  have hstream := takeFails_apart k v a echo code s
  rw [hkept] at hstream
  exact ⟨(Stream.state_of_apart hstream :), (Stream.failing_of_apart hstream :), (Stream.taken_of_apart hstream :),
    (sameHoldings_of_apart hstream).of_skip⟩

end outcome

/-- Settles O25: the checks written out are `headerValid_iff`; each way to fail ends in `failTake` with its code, on the state
with the skip request as the header leaves it, and the stream is then as `takeFailed` says. -/
theorem takeFailsAtHeader : Obligations.TakeFailsAtHeader := by
  unfold Obligations.TakeFailsAtHeader
  refine ⟨headerValid_iff, fun s k a data code echo hf hfail => ?take⟩
  obtain ⟨v, hexec⟩ : ∃ v, exec (.headerReadDone data) s = .next (drain (failTake k a echo code (withSkip k v s))) := by
    rcases hfail with ⟨rfl, rfl, rfl⟩ | ⟨bytes, rfl, hlen, hp, rfl, ⟨hv, rfl⟩ | ⟨hv, rfl, e, he, hne⟩⟩
    · exact ⟨(s.stream k).skip, by rw [exec_headerReadDone_none hf, withSkip_own]⟩
    · exact ⟨_, by rw [exec_headerReadDone_some hf hlen, onHeader_of_posted hp, takeHeader_of_invalid hv]⟩
    · exact ⟨_, by rw [exec_headerReadDone_some hf hlen, onHeader_of_posted hp, takeHeader_of_wrong_sequence hv he hne]⟩
  exact ⟨_, hexec, takeFails_fetch .., othersKept_takeFails k v a echo code s, sameStatus_takeFails ..,
    sameEvents_takeFails .., sameAround_takeFails .., takeFails_cmd .., takeFails_halts, takeFails_kept⟩

end Sys2Proof.Machine
end

section
/-! PROOFS. Writes to CMD (R184, R186). -/

namespace Sys2Proof.Machine

/-! ## The latch of a signalled cause (R191) -/

theorem causeMask_eq_twoPow (c : Cause) : causeMask c = BitVec.twoPow 5 (causeIndex c) := by
  cases c <;> rfl

/-- Setting a latch that is set changes no latch. -/
theorem or_causeMask_of_latched {l : BitVec 5} {c : Cause} (h : latched l c = true) : l ||| causeMask c = l := by
  refine BitVec.eq_of_getLsbD_eq fun i _ => ?_
  rw [causeMask_eq_twoPow, BitVec.getLsbD_or, BitVec.getLsbD_twoPow]
  by_cases hi : causeIndex c = i
  · have hbit : l.getLsbD i = true := hi ▸ h
    rw [hbit, Bool.true_or]
  · simp [hi]

/-- All the latches after a cause signal, the cause's latch set before or not. -/
theorem signal_evlatch (c : Cause) (s : State) : (signal c s).evlatch = s.evlatch ||| causeMask c := by
  rcases signal_cases c s with ⟨hlatched, hs⟩ | ⟨_, _, _, hs⟩
  · rw [hs, or_causeMask_of_latched hlatched]
  · rw [hs]

theorem setFault_evlatch (b k : BitVec 4) (s : State) :
    (setFault b k s).evlatch = s.evlatch ||| causeMask .deviceFault := by
  rw [setFault, signal_evlatch]

/-! ## What setting a DEVSTAT bit leaves (R186) -/

theorem sameControl_setFault (b k : BitVec 4) (s : State) : SameControl s (setFault b k s) := by
  constructor <;> simp

theorem sameEventSetup_setFault (b k : BitVec 4) (s : State) : SameEventSetup s (setFault b k s) := by
  constructor <;> simp

theorem sameScheduling_setFault (b k : BitVec 4) (s : State) : SameScheduling s (setFault b k s) := by
  constructor <;> simp

/-! ## A write to CMD (R184) -/

theorem writeCmd_of_pending {s : State} (h : s.cmd.result = .pending) (code : BitVec 3) (stream : BitVec 4)
    (skip : Bool) (tag : BitVec 16) : writeCmd code stream skip tag s = setFault faultOverrun stream s :=
  if_pos h

theorem writeCmd_of_not_pending {s : State} (h : s.cmd.result ≠ .pending) (code : BitVec 3) (stream : BitVec 4)
    (skip : Bool) (tag : BitVec 16) : writeCmd code stream skip tag s = { s with cmd :=
      { stream := stream, code := code, skip := skip, result := takenResult s.enable stream code, tag := tag } } :=
  if_neg h

/-- Each of the seven commands that write CMD does so with its own command field. -/
theorem exec_of_cmdWritten {c : Instr} {stream : BitVec 4} {code : BitVec 3} {skip : Bool} {tag : BitVec 16}
    (h : cmdWritten c = some (stream, code, skip, tag)) (s : State) :
    exec c s = .next (writeCmd code stream skip tag s) := by
  cases c with
  | cmdOpen | cmdStop | cmdAbort | cmdResume | cmdClose | cmdPoll => cases h; rfl
  | cmdUndefined undefinedCode =>
    cases undefinedCode with
    | zero => cases h; rfl
    | seven => cases h; rfl
  | _ => cases h

/-- Settles O4: every CMD write is `writeCmd` by `exec_of_cmdWritten`; while a command is PENDING that is `setFault` with
CMD_OVERRUN, and otherwise CMD takes the fields with `takenResult`. -/
theorem cmdWriteJudged : Obligations.CmdWriteJudged := by
  unfold Obligations.CmdWriteJudged
  intro c s stream code skip tag hwritten
  rw [exec_of_cmdWritten hwritten]
  refine ⟨fun hpending => ?dropped, fun hfree => ?taken⟩
  case dropped =>
    rw [writeCmd_of_pending hpending]
    exact ⟨_, rfl, setFault_cmd .., setFault_streams .., setFault_faults .., setFault_lastFault .., setFault_evlatch ..,
      sameControl_setFault .., sameEventSetup_setFault .., sameScheduling_setFault .., setFault_pending ..⟩
  case taken =>
    rw [writeCmd_of_not_pending hfree, takenResult]

end Sys2Proof.Machine
end

section
/-! PROOFS. The layouts of the records the part writes (10.8): span reports, log entries and progress records. -/

namespace Sys2Proof.Machine

/-! ## Records written field by field (R193) -/

/-- A record whose fields, each a width and a value, stand one after another. -/
def fieldsBytes (fs : List (Nat × Nat)) : List Byte :=
  fs.flatMap fun f => leBytes f.1 f.2

theorem length_fieldsBytes (fs : List (Nat × Nat)) : (fieldsBytes fs).length = (fs.map Prod.fst).sum := by
  induction fs with
  | nil => rfl
  | cons f fs ih =>
      have e : fieldsBytes (f :: fs) = leBytes f.1 f.2 ++ fieldsBytes fs := List.flatMap_cons
      rw [e, List.length_append, length_leBytes, ih, List.map_cons, List.sum_cons]

/-- The `i`-th field of a record is read where the fields before it end. -/
theorem fieldAt_fieldsBytes {fs : List (Nat × Nat)} (i : Nat) {n v off : Nat} (h : fs[i]? = some (n, v))
    (hoff : ((fs.take i).map Prod.fst).sum = off) : fieldAt (fieldsBytes fs) off n = v % 256 ^ n := by
  subst hoff
  induction fs generalizing i with
  | nil => cases h
  | cons f fs ih =>
      have e : fieldsBytes (f :: fs) = leBytes f.1 f.2 ++ fieldsBytes fs := List.flatMap_cons
      rw [e]
      cases i with
      | zero =>
          cases h
          exact fieldAt_leBytes_append n v _
      | succ i =>
          rw [List.take_succ_cons, List.map_cons, List.sum_cons,
            fieldAt_append _ _ _ _ (by rw [length_leBytes]; exact Nat.le_add_right _ _), length_leBytes,
            Nat.add_sub_cancel_left]
          exact ih i h

/-- A field of four bytes. -/
theorem fieldAt_word {fs : List (Nat × Nat)} (i : Nat) {v off : Nat} (h : fs[i]? = some (4, v))
    (hoff : ((fs.take i).map Prod.fst).sum = off) : fieldAt (fieldsBytes fs) off 4 = v % 2 ^ 32 :=
  (fieldAt_fieldsBytes i h hoff).trans (by norm_num)

/-- A field of eight bytes. -/
theorem fieldAt_double {fs : List (Nat × Nat)} (i : Nat) {v off : Nat} (h : fs[i]? = some (8, v))
    (hoff : ((fs.take i).map Prod.fst).sum = off) : fieldAt (fieldsBytes fs) off 8 = v % 2 ^ 64 :=
  (fieldAt_fieldsBytes i h hoff).trans (by norm_num)

/-- A field whose value fits its width. -/
theorem fieldAt_of_lt {fs : List (Nat × Nat)} (i : Nat) {n v off : Nat} (hv : v < 2 ^ (8 * n)) (h : fs[i]? = some (n, v))
    (hoff : ((fs.take i).map Prod.fst).sum = off) : fieldAt (fieldsBytes fs) off n = v := by
  rw [fieldAt_fieldsBytes i h hoff]
  refine Nat.mod_eq_of_lt (lt_of_lt_of_eq hv ?_)
  rw [pow_mul]; norm_num

/-! ## Codes (10.8) -/

theorem completionCode_lt (c : Completion) : completionCode c < 256 := by cases c <;> decide

theorem stateCode_lt (st : StreamState) : stateCode st < 256 := by cases st <;> decide

theorem kindCode_lt (k : Kind) : kindCode k < 256 := by cases k <;> decide

theorem openCodeNat_lt (o : Option OpenCode) : openCodeNat o < 256 := by
  rcases o with _ | _ | _ <;> decide

theorem bitIf_eq (b : Bool) (n : Nat) : bitIf b n = if b = true then n else 0 := rfl

/-- The code that a progress record shows of a failing span, 0 with none (R189). -/
def failingCode (f : Option FailRecord) : Nat :=
  match f with
  | none => 0
  | some f => completionCode f.code

/-- The address that a progress record shows of a failing span, 0 with none (R189). -/
def failingAddr (f : Option FailRecord) : Nat :=
  match f with
  | none => 0
  | some f => f.addr

theorem failingCode_lt (f : Option FailRecord) : failingCode f < 256 := by
  cases f with
  | none => decide
  | some f => exact completionCode_lt f.code

/-! ## The three records as lists of fields -/

theorem reportBytes_eq (code : Completion) (echo : Seq) (t : Tally) (mask : LaneMask) (th : Nat) :
    reportBytes code echo t mask th = fieldsBytes
      [(4, completionCode code), (4, echo.toNat), (4, t.samplesOutput), (4, t.logWritten), (4, t.logLost),
       (4, t.clickWindows), (4, t.voidWindows), (4, t.spliceWindows), (4, t.protectedWindows), (4, t.longWindows),
       (4, t.repaired), (4, t.voidRepaired), (4, t.voidPassed), (4, t.disputed), (4, t.unresolved), (4, t.fetchFailed),
       (4, t.fetchVoid), (4, t.marksIgnored), (4, t.phaseOverruns), (4, t.humClamps), (4, t.saturations),
       (4, t.retirements), (4, t.reinstatements), (4, (t.mask.getD mask).toNat + bitIf t.clamped 256),
       (4, t.thEnd.getD th), (4, (crcFinish t.votedCrc).toNat), (4, (crcFinish t.outputCrc).toNat), (20, 0)] := by
  unfold reportBytes
  simp only [fieldsBytes, List.flatMap_cons, List.flatMap_nil, List.append_assoc, List.append_nil]

theorem logEntryBytes_eq (start length : Nat) (kind : Kind) (c : Content) :
    logEntryBytes start length kind c = fieldsBytes
      [(2, start), (2, length), (1, kindCode kind), (1, bitIf c.scanner 1 + bitIf c.fetch 2 + bitIf c.unresolved 4),
       (2, c.voids), (4, min c.peak Config.peakMax), (4, 0)] := by
  unfold logEntryBytes
  simp only [fieldsBytes, List.flatMap_cons, List.flatMap_nil, List.append_assoc, List.append_nil]

theorem progressBytes_eq (k : StreamId) (x : Stream) (mask : LaneMask) :
    progressBytes k x mask = fieldsBytes
      [(1, stateCode x.state), (1, mask.toNat), (2, x.tag.toNat), (1, failingCode x.failing), (1, openCodeNat x.openCode),
       (1, k.val), (1, 0), (8, positionAddr x.position), (8, x.counters.lastAddr), (4, x.counters.lastSeq.toNat),
       (4, x.counters.released.toNat), (8, x.counters.samples.toNat), (8, failingAddr x.failing), (16, 0)] := by
  unfold progressBytes
  cases x.failing <;>
    simp only [fieldsBytes, failingCode, failingAddr, List.flatMap_cons, List.flatMap_nil, List.append_assoc,
      List.append_nil]

theorem length_progressBytes (k : StreamId) (x : Stream) (mask : LaneMask) : (progressBytes k x mask).length = 64 := by
  rw [progressBytes_eq, length_fieldsBytes]; simp

theorem progressBytes_state (k : StreamId) (x : Stream) (mask : LaneMask) :
    fieldAt (progressBytes k x mask) 0x00 1 = stateCode x.state := by
  rw [progressBytes_eq]
  exact fieldAt_of_lt 0 (stateCode_lt _) rfl (by simp)

theorem progressBytes_tag (k : StreamId) (x : Stream) (mask : LaneMask) :
    fieldAt (progressBytes k x mask) 0x02 2 = x.tag.toNat := by
  rw [progressBytes_eq]
  exact fieldAt_of_lt 2 x.tag.isLt rfl (by simp)

/-! ## Active lanes (R20, R189) -/

theorem liveMask_of_unopened {x : Stream} (h : unopened x.state = true) : liveMask x = 0#3 := by
  unfold liveMask
  revert h
  cases x.state <;> simp [unopened]

theorem liveMask_of_ctx {x : Stream} {ctx : SignalContext} (h : unopened x.state = false) (hctx : x.ctx = some ctx) :
    liveMask x = activeMask ctx.config ctx.lanes := by
  unfold liveMask
  rw [hctx]
  revert h
  cases x.state <;> simp [unopened]

theorem activeMask_one {cfg : StreamConfig} (h : cfg.laneCount = .one) (ls : LaneState) : activeMask cfg ls = 1#3 := by
  simp [activeMask, h]

theorem getLsbD_activeMask_three {cfg : StreamConfig} (h : cfg.laneCount = .three) (ls : LaneState) (l : Lane) :
    (activeMask cfg ls).getLsbD l.val = decide (ls.retired ≠ some l) := by
  have lanes : ∀ l m : Lane, (7#3 &&& ~~~(1#3 <<< m.val)).getLsbD l.val = decide (some m ≠ some l) := by decide
  have all : ∀ l : Lane, (7#3).getLsbD l.val = true := by decide
  unfold activeMask
  rw [h]
  cases hr : ls.retired with
  | none => simpa using all l
  | some m => exact lanes l m

/-! ## O60 -/

theorem report_layout (code : Completion) (echo : Seq) (t : Tally) (mask : LaneMask) (th : Nat) :
    let r := reportBytes code echo t mask th
    r.length = 128 ∧ fieldAt r 0x00 4 = completionCode code ∧ fieldAt r 0x04 4 = echo.toNat ∧
    fieldAt r 0x08 4 = t.samplesOutput % 2 ^ 32 ∧ fieldAt r 0x0C 4 = t.logWritten % 2 ^ 32 ∧
    fieldAt r 0x10 4 = t.logLost % 2 ^ 32 ∧ fieldAt r 0x14 4 = t.clickWindows % 2 ^ 32 ∧
    fieldAt r 0x18 4 = t.voidWindows % 2 ^ 32 ∧ fieldAt r 0x1C 4 = t.spliceWindows % 2 ^ 32 ∧
    fieldAt r 0x20 4 = t.protectedWindows % 2 ^ 32 ∧ fieldAt r 0x24 4 = t.longWindows % 2 ^ 32 ∧
    fieldAt r 0x28 4 = t.repaired % 2 ^ 32 ∧ fieldAt r 0x2C 4 = t.voidRepaired % 2 ^ 32 ∧
    fieldAt r 0x30 4 = t.voidPassed % 2 ^ 32 ∧ fieldAt r 0x34 4 = t.disputed % 2 ^ 32 ∧
    fieldAt r 0x38 4 = t.unresolved % 2 ^ 32 ∧ fieldAt r 0x3C 4 = t.fetchFailed % 2 ^ 32 ∧
    fieldAt r 0x40 4 = t.fetchVoid % 2 ^ 32 ∧ fieldAt r 0x44 4 = t.marksIgnored % 2 ^ 32 ∧
    fieldAt r 0x48 4 = t.phaseOverruns % 2 ^ 32 ∧ fieldAt r 0x4C 4 = t.humClamps % 2 ^ 32 ∧
    fieldAt r 0x50 4 = t.saturations % 2 ^ 32 ∧ fieldAt r 0x54 4 = t.retirements % 2 ^ 32 ∧
    fieldAt r 0x58 4 = t.reinstatements % 2 ^ 32 ∧
    fieldAt r 0x5C 4 = (t.mask.getD mask).toNat + (if t.clamped = true then 256 else 0) ∧
    fieldAt r 0x60 4 = (t.thEnd.getD th) % 2 ^ 32 ∧ fieldAt r 0x64 4 = (~~~t.votedCrc).toNat ∧
    fieldAt r 0x68 4 = (~~~t.outputCrc).toNat ∧ fieldAt r 0x6C 20 = 0 := by
  have hcode := completionCode_lt code
  have hmask : (t.mask.getD mask).toNat < 8 := (t.mask.getD mask).isLt
  have hbit : (if t.clamped = true then 256 else 0) ≤ 256 := by split <;> decide
  dsimp only
  rw [reportBytes_eq]
  refine ⟨by rw [length_fieldsBytes]; simp, fieldAt_of_lt 0 (Nat.lt_of_lt_of_le hcode (by decide)) rfl (by simp),
    fieldAt_of_lt 1 echo.isLt rfl (by simp),
    fieldAt_word 2 rfl (by simp), fieldAt_word 3 rfl (by simp), fieldAt_word 4 rfl (by simp), fieldAt_word 5 rfl (by simp),
    fieldAt_word 6 rfl (by simp), fieldAt_word 7 rfl (by simp), fieldAt_word 8 rfl (by simp), fieldAt_word 9 rfl (by simp),
    fieldAt_word 10 rfl (by simp), fieldAt_word 11 rfl (by simp), fieldAt_word 12 rfl (by simp), fieldAt_word 13 rfl (by simp),
    fieldAt_word 14 rfl (by simp), fieldAt_word 15 rfl (by simp), fieldAt_word 16 rfl (by simp), fieldAt_word 17 rfl (by simp),
    fieldAt_word 18 rfl (by simp), fieldAt_word 19 rfl (by simp), fieldAt_word 20 rfl (by simp), fieldAt_word 21 rfl (by simp),
    fieldAt_word 22 rfl (by simp), fieldAt_of_lt 23 (by omega) rfl (by simp), fieldAt_word 24 rfl (by simp),
    fieldAt_of_lt 25 (BitVec.isLt _) rfl (by simp), fieldAt_of_lt 26 (BitVec.isLt _) rfl (by simp),
    fieldAt_of_lt 27 (by decide) rfl (by simp)⟩

theorem logEntry_layout (start length : Nat) (kind : Kind) (c : Content) :
    let r := logEntryBytes start length kind c
    r.length = 16 ∧ fieldAt r 0 2 = start % 2 ^ 16 ∧ fieldAt r 2 2 = length % 2 ^ 16 ∧ fieldAt r 4 1 = kindCode kind ∧
    fieldAt r 5 1 = (if c.scanner = true then 1 else 0) + (if c.fetch = true then 2 else 0) +
      (if c.unresolved = true then 4 else 0) ∧
    fieldAt r 6 2 = c.voids % 2 ^ 16 ∧ fieldAt r 8 4 = min c.peak 16777215 ∧ fieldAt r 12 4 = 0 := by
  have hkind := kindCode_lt kind
  have hflags : bitIf c.scanner 1 + bitIf c.fetch 2 + bitIf c.unresolved 4 < 256 := by
    simp only [bitIf_eq]; split <;> split <;> split <;> omega
  have hpeak : min c.peak 16777215 < 256 ^ 4 := by omega
  dsimp only
  rw [logEntryBytes_eq]
  exact ⟨by rw [length_fieldsBytes]; simp, fieldAt_fieldsBytes 0 rfl (by simp), fieldAt_fieldsBytes 1 rfl (by simp),
    (fieldAt_fieldsBytes 2 rfl (by simp)).trans (Nat.mod_eq_of_lt hkind),
    (fieldAt_fieldsBytes 3 rfl (by simp)).trans (Nat.mod_eq_of_lt hflags), fieldAt_fieldsBytes 4 rfl (by simp),
    (fieldAt_fieldsBytes 5 rfl (by simp)).trans (Nat.mod_eq_of_lt hpeak),
    (fieldAt_fieldsBytes 6 rfl (by simp)).trans (Nat.zero_mod _)⟩

theorem progress_layout (k : StreamId) (x : Stream) (mask : LaneMask) :
    let r := progressBytes k x mask
    r.length = 64 ∧ fieldAt r 0x00 1 = stateCode x.state ∧ fieldAt r 0x01 1 = mask.toNat ∧
    fieldAt r 0x02 2 = x.tag.toNat ∧ fieldAt r 0x04 1 = failingCode x.failing ∧
    fieldAt r 0x05 1 = openCodeNat x.openCode ∧ fieldAt r 0x06 1 = k.val ∧ fieldAt r 0x07 1 = 0 ∧
    fieldAt r 0x08 8 = positionAddr x.position % 2 ^ 64 ∧ fieldAt r 0x10 8 = x.counters.lastAddr % 2 ^ 64 ∧
    fieldAt r 0x18 4 = x.counters.lastSeq.toNat ∧ fieldAt r 0x1C 4 = x.counters.released.toNat ∧
    fieldAt r 0x20 8 = x.counters.samples.toNat ∧ fieldAt r 0x28 8 = failingAddr x.failing % 2 ^ 64 ∧
    fieldAt r 0x30 16 = 0 := by
  have hmask : mask.toNat < 2 ^ (8 * 1) := Nat.lt_of_lt_of_le mask.isLt (by decide)
  have hk : k.val < 2 ^ (8 * 1) := Nat.lt_of_lt_of_le k.isLt (by decide)
  refine ⟨length_progressBytes .., progressBytes_state .., ?_⟩
  rw [progressBytes_eq]
  exact ⟨fieldAt_of_lt 1 hmask rfl (by simp), fieldAt_of_lt 2 x.tag.isLt rfl (by simp), fieldAt_of_lt 3 (failingCode_lt _) rfl (by simp),
    fieldAt_of_lt 4 (openCodeNat_lt _) rfl (by simp), fieldAt_of_lt 5 hk rfl (by simp), fieldAt_of_lt 6 (by decide) rfl (by simp),
    fieldAt_double 7 rfl (by simp), fieldAt_double 8 rfl (by simp), fieldAt_of_lt 9 (BitVec.isLt _) rfl (by simp),
    fieldAt_of_lt 10 (BitVec.isLt _) rfl (by simp), fieldAt_of_lt 11 (BitVec.isLt _) rfl (by simp), fieldAt_double 12 rfl (by simp),
    fieldAt_of_lt 13 (by decide) rfl (by simp)⟩

/-- Settles O60: each record is a list of fields (`reportBytes_eq`, `logEntryBytes_eq`, `progressBytes_eq`), read back where
they stand by `fieldAt_fieldsBytes`. -/
theorem recordLayouts : Obligations.RecordLayouts := by
  unfold Obligations.RecordLayouts
  refine ⟨⟨⟨rfl, rfl, rfl, rfl, rfl, rfl, rfl, rfl, rfl⟩, ⟨rfl, rfl, rfl, rfl, rfl, rfl, rfl, rfl, rfl⟩,
      rfl, rfl, rfl, rfl, rfl⟩,
    fun k x addr => ⟨rfl, liveMask_of_unopened, fun ctx => liveMask_of_ctx⟩,
    fun cfg ls => ⟨fun h => activeMask_one h ls, fun h => getLsbD_activeMask_three h ls⟩,
    report_layout, logEntry_layout, fun k x mask => ?_⟩
  obtain ⟨hlen, hstate, hmask, htag, hcode, hopen, hk, hzero, hpos, haddr, hseq, hrel, hsam, hfail, hrest⟩ :=
    progress_layout k x mask
  refine ⟨hlen, hstate, hmask, htag, hcode.trans ?_, hopen.trans ?_, hk, hzero, hpos.trans ?_, haddr, hseq, hrel, hsam,
    hfail.trans ?_, hrest⟩
  · cases x.failing <;> rfl
  · rcases x.openCode with _ | _ | _ <;> rfl
  · cases x.position <;> rfl
  · cases x.failing <;> rfl

end Sys2Proof.Machine
end

section
/-! PROOFS. Registers and events (10.1, 10.4, 10.7): what reads find, INTx, messages and the registers that change themselves alone. -/

namespace Sys2Proof.Machine

/-! ## INTx (R192) -/

theorem mem_allCauses (c : Cause) : c ∈ allCauses := by cases c <;> decide

/-- The level of INTx, over the causes. -/
theorem intxLevel_iff (enabled : Bool) (latch : BitVec 5) (map : BitVec 15) :
    intxLevel enabled latch map = true ↔ enabled = false ∧ ∃ c : Cause, latched latch c = true ∧ mapEntry map c < 4 := by
  simp only [intxLevel, signalled, Bool.and_eq_true, Bool.not_eq_true', List.any_eq_true, decide_eq_true_eq]
  exact and_congr_right fun _ => ⟨fun ⟨c, _, h⟩ => ⟨c, h⟩, fun ⟨c, h⟩ => ⟨c, mem_allCauses c, h⟩⟩

theorem intxFollows_refreshIntx (s : State) : IntxFollows (refreshIntx s) :=
  intxLevel_iff s.msgEnabled s.evlatch s.evmap

theorem intxFollows_signal (c : Cause) (s : State) (h : IntxFollows s) : IntxFollows (signal c s) := by
  unfold signal
  split
  · exact h
  · exact intxFollows_refreshIntx _

/-! ## Messages (R192) -/

/-- The message of one cause, and what else of the state stays. -/
theorem messageIfMapped_form (c : Cause) (s : State) : ∃ ms : List Message,
    ms.map (fun m => (m.cause, m.vector)) = (if s.msgEnabled = true ∧ mapEntry s.evmap c < 4 then
      [(c, mapEntry s.evmap c % vectorCount s.msgVectors)] else []) ∧
    messageIfMapped c s = { s with messages := s.messages ++ ms } := by
  unfold messageIfMapped
  by_cases h : s.msgEnabled = true ∧ mapEntry s.evmap c < 4
  · rw [if_pos h, if_pos (by simpa using h)]
    exact ⟨[_], rfl, rfl⟩
  · rw [if_neg h, if_neg (by simpa using h)]
    exact ⟨[], rfl, by simp⟩

/-- The messages of several mapped causes, one after another. -/
theorem foldl_messageIfMapped (cs : List Cause) (s : State) (h : ∀ c ∈ cs, mapEntry s.evmap c < 4) :
    ∃ ms : List Message,
      ms.map (fun m => (m.cause, m.vector)) = (if s.msgEnabled = true then
        cs.map fun c => (c, mapEntry s.evmap c % vectorCount s.msgVectors) else []) ∧
      cs.foldl (fun t c => messageIfMapped c t) s = { s with messages := s.messages ++ ms } := by
  induction cs generalizing s with
  | nil => exact ⟨[], by simp, by simp⟩
  | cons c cs ih =>
      obtain ⟨ms, hms, e⟩ := messageIfMapped_form c s
      obtain ⟨ns, hns, e'⟩ := ih (messageIfMapped c s) (by rw [e]; exact fun d hd => h d (List.mem_cons_of_mem c hd))
      rw [e] at hns e'
      have hc := h c List.mem_cons_self
      refine ⟨ms ++ ns, ?_, ?_⟩
      · rw [List.map_append, hms, hns]
        by_cases hm : s.msgEnabled = true
        · rw [if_pos ⟨hm, hc⟩, if_pos hm, if_pos hm]; rfl
        · rw [if_neg (fun hn => hm hn.1), if_neg hm, if_neg hm]; rfl
      · rw [List.foldl_cons, e, e', List.append_assoc]

/-- Settles O7: a cause signal with its latch set is no change, and else latches, sends by `messageIfMapped_form` and lets INTx
follow. -/
theorem causeSignalLatchesOnce : Obligations.CauseSignalLatchesOnce := by
  unfold Obligations.CauseSignalLatchesOnce
  intro c s
  refine ⟨fun h => by rw [signal, if_pos h], fun h => ?_⟩
  obtain ⟨ms, hms, e⟩ := messageIfMapped_form c { s with evlatch := s.evlatch ||| causeMask c }
  have hsignal : signal c s = refreshIntx { s with
      evlatch := s.evlatch ||| causeMask c, messages := s.messages ++ ms } := by
    rw [signal, if_neg (by simp [h]), e]
  refine ⟨ms, _, hms, hsignal, fun d => latched_signal c d s, ?_⟩
  rw [hsignal]
  exact intxFollows_refreshIntx _

/-- Settles O6: the messages of a map write are those of the causes newly mapped, by `foldl_messageIfMapped`. -/
theorem vectorSetupSendsAndMovesIntx : Obligations.VectorSetupSendsAndMovesIntx := by
  unfold Obligations.VectorSetupSendsAndMovesIntx
  refine ⟨fun value s => ?_, fun enabled vectors s => ⟨_, rfl, intxFollows_refreshIntx _⟩⟩
  obtain ⟨ms, hms, e⟩ := foldl_messageIfMapped
    (allCauses.filter (newlyMapped s.evlatch s.evmap (value.setWidth 15))) { s with evmap := value.setWidth 15 }
    (fun c hc => by simpa [newlyMapped] using (Bool.and_eq_true_iff.1 (Bool.and_eq_true_iff.1 (List.mem_filter.1 hc).2).1).2)
  have hexec : exec (.evmapWrite value) s =
      .next (refreshIntx { s with evmap := value.setWidth 15, messages := s.messages ++ ms }) := by
    show Host.Outcome.next (writeEvmap value s) = _
    rw [writeEvmap]
    exact congrArg (fun t => Host.Outcome.next (refreshIntx t)) e
  exact ⟨ms, _, hms, hexec, intxFollows_refreshIntx _⟩

/-! ## Register reads (R182) -/

/-- A field shifted up and a lower one below it are their sum. -/
theorem toNat_shiftLeft_or {w : Nat} (x : BitVec w) (y : Word32) (i : Nat) (hx : x.toNat * 2 ^ i < 2 ^ 32)
    (hy : y.toNat < 2 ^ i) : (x.setWidth 32 <<< i ||| y).toNat = x.toNat * 2 ^ i + y.toNat := by
  have hx' : x.toNat < 2 ^ 32 := Nat.lt_of_le_of_lt (Nat.le_mul_of_pos_right _ (Nat.two_pow_pos i)) hx
  rw [BitVec.toNat_or, BitVec.toNat_shiftLeft, BitVec.toNat_setWidth, Nat.mod_eq_of_lt hx', Nat.shiftLeft_eq,
    Nat.mod_eq_of_lt hx, ← Nat.shiftLeft_eq, Nat.shiftLeft_add_eq_or_of_lt hy, Nat.shiftLeft_eq]

theorem toNat_setWidth_32 {w : Nat} (x : BitVec w) (hw : w ≤ 32) : (x.setWidth 32).toNat = x.toNat :=
  BitVec.toNat_setWidth_of_le hw

theorem toNat_devstatWord (s : State) : (devstatWord s).toNat = s.faults.toNat + 2 ^ 8 * s.lastFault.toNat := by
  have hf := s.faults.isLt
  have hl := s.lastFault.isLt
  have he := toNat_setWidth_32 s.faults (by decide)
  rw [devstatWord, toNat_shiftLeft_or _ _ 8 (by omega) (by omega)]
  omega

theorem toNat_ofBool_eq (b : Bool) : (BitVec.ofBool b).toNat = if b = true then 1 else 0 := by cases b <;> rfl

theorem toNat_cmdWord (c : CmdReg) : (cmdWord c).toNat = c.stream.toNat + 2 ^ 4 * c.code.toNat +
    2 ^ 7 * (if c.skip = true then 1 else 0) + 2 ^ 8 * (resultBits c.result).toNat + 2 ^ 16 * c.tag.toNat := by
  have hstream := c.stream.isLt
  have hcode := c.code.isLt
  have hskip := (BitVec.ofBool c.skip).isLt
  have hresult := (resultBits c.result).isLt
  have htag := c.tag.isLt
  have e0 := toNat_setWidth_32 c.stream (by decide)
  have e1 := toNat_shiftLeft_or c.code (c.stream.setWidth 32) 4 (by omega) (by omega)
  have e2 := toNat_shiftLeft_or (BitVec.ofBool c.skip) _ 7 (by omega) (lt_of_eq_of_lt e1 (by omega))
  have e3 := toNat_shiftLeft_or (resultBits c.result) _ 8 (by omega) (lt_of_eq_of_lt e2 (by omega))
  have e4 := toNat_shiftLeft_or c.tag _ 16 (by omega) (lt_of_eq_of_lt e3 (by omega))
  have hbool := toNat_ofBool_eq c.skip
  rw [cmdWord, BitVec.or_assoc, BitVec.or_assoc, BitVec.or_assoc, e4, e3, e2, e1, e0]
  omega

theorem toNat_readWindow (s : State) (offset : Nat) : (readWindow s offset).toNat =
    (readRegister s (offset - offset % 4)).toNat / 256 ^ (offset % 4) % 256 := by
  have hoffset : offset / 4 * 4 = offset - offset % 4 := by omega
  rw [readWindow, hoffset, BitVec.toNat_setWidth, BitVec.toNat_ushiftRight, Nat.shiftRight_eq_div_pow, pow_mul]
  norm_num

theorem latched_eq_getLsbD (latch : BitVec 5) (c : Cause) :
    latched latch c = ((latch.setWidth 32 : Word32)).getLsbD (causeIndex c) := by
  have h : causeIndex c < 32 := by cases c <;> decide
  simp [latched, h]

theorem mapEntry_eq_div (map : BitVec 15) (c : Cause) :
    mapEntry map c = (map.setWidth 32 : Word32).toNat / 8 ^ causeIndex c % 8 := by
  rw [mapEntry, BitVec.toNat_ushiftRight, Nat.shiftRight_eq_div_pow, pow_mul, toNat_setWidth_32 map (by decide)]
  norm_num

/-! ## Register writes (R182) -/

theorem exec_registerWrite_full (offset : BitVec 6) (value : Word32) (s : State) (h : offset.toNat % 4 = 0) :
    exec (.registerWrite offset 4 value) s = .next (writeRegister offset value s) :=
  if_pos ⟨rfl, h⟩

theorem exec_registerWrite_ignored (offset : BitVec 6) (size : Nat) (value : Word32) (s : State)
    (h : size < 4 ∨ offset.toNat % 4 ≠ 0) : exec (.registerWrite offset size value) s = .next s :=
  if_neg (by omega)

theorem writeRegister_of_ge (offset : BitVec 6) (value : Word32) (s : State) (h : 0x24 ≤ offset.toNat) :
    writeRegister offset value s = s := by
  unfold writeRegister
  split <;> first | rfl | omega

theorem getLsbD_heldTableLow (value : Word32) (i : Fin 32) :
    (heldTableLow value).getLsbD i.val = (value.getLsbD i.val && decide (6 ≤ i.val)) := by
  have mask : ∀ i : Fin 32, (0xFFFFFFC0#32).getLsbD i.val = decide (6 ≤ i.val) := by decide
  rw [heldTableLow, BitVec.getLsbD_and, mask]

theorem getLsbD_cleared {n : Nat} (x : BitVec n) (value : Word32) (i : Fin n) :
    (x &&& ~~~(value.setWidth n)).getLsbD i.val = (x.getLsbD i.val && !value.getLsbD i.val) := by
  simp

/-- Settles O5: what reads find is read off each register's word; each write is its equation of `exec`. -/
theorem registerWritesTakeEffect : Obligations.RegisterWritesTakeEffect := by
  unfold Obligations.RegisterWritesTakeEffect
  refine ⟨fun s => ⟨rfl, ?enable, toNat_devstatWord s, toNat_setWidth_32 _ (by decide), rfl, rfl, ?cmd,
      toNat_setWidth_32 _ (by decide), toNat_setWidth_32 _ (by decide), ?causes, fun offset _ => toNat_readWindow s offset⟩,
    ⟨fun _ _ => rfl, fun s h => ⟨if_neg (by simp [h]), if_neg (by simp [h])⟩⟩,
    fun value s => ⟨_, getLsbD_cleared s.faults value, rfl⟩,
    fun value s => ⟨_, _, getLsbD_cleared s.evlatch value, rfl, intxFollows_refreshIntx _⟩,
    fun value s => ⟨rfl, ⟨_, rfl, getLsbD_heldTableLow value⟩, rfl, rfl, ?reserved,
      fun offset size h => exec_registerWrite_ignored offset size value s h⟩⟩
  case enable =>
    exact (toNat_setWidth_32 (BitVec.ofBool s.enable) (by decide)).trans (toNat_ofBool_eq s.enable)
  case cmd => exact (toNat_cmdWord s.cmd).trans (by cases s.cmd.result <;> rfl)
  case causes =>
    intro c i hi
    obtain rfl : i = causeIndex c := by rw [hi]; cases c <;> rfl
    exact ⟨latched_eq_getLsbD s.evlatch c, mapEntry_eq_div s.evmap c⟩
  case reserved =>
    intro offset h
    by_cases ha : offset.toNat % 4 = 0
    · rw [exec_registerWrite_full offset value s ha, writeRegister_of_ge offset value s h]
    · exact exec_registerWrite_ignored offset 4 value s (Or.inr ha)

end Sys2Proof.Machine
end

section
/-! PROOFS. What the work on one stream leaves as it was, said once: every piece of work is a chain of changes of that stream's
record, of the fetch transaction, of cause signals and of DEVSTAT settings. -/

namespace Sys2Proof.Machine

/-! ## Work on one stream -/

/-- What of the device a piece of work may change beside its stream and the fetch transaction: nothing, the latches by cause
signals, or DEVSTAT too. -/
inductive Loudness where
  | silent
  | signals
  | faults

/-- Work on stream `k` leads from `s` to the state. -/
inductive Works (n : Loudness) (k : StreamId) (s : State) : State → Prop
  | refl : Works n k s s
  | stream {t : State} (f : Stream → Stream) (h : Works n k s t) : Works n k s (onStream k f t)
  | fetch {t : State} (v : Option FetchTxn) (h : Works n k s t) : Works n k s { t with fetch := v }
  | signal {t : State} (c : Cause) (hn : n ≠ .silent) (h : Works n k s t) : Works n k s (signal c t)
  | fault {t : State} (b : BitVec 4) (hn : n = .faults) (h : Works n k s t) : Works n k s (setFault b (streamBits k) t)

namespace Works

variable {n : Loudness} {k : StreamId} {s t u : State}

theorem trans (h : Works n k s t) (g : Works n k t u) : Works n k s u := by
  induction g with
  | refl => exact h
  | stream f _ ih => exact ih.stream f
  | fetch v _ ih => exact ih.fetch v
  | signal c hn _ ih => exact ih.signal c hn
  | fault b hn _ ih => exact ih.fault b hn

/-- Silent work is work of any loudness. -/
theorem of_silent (h : Works .silent k s t) : Works n k s t := by
  induction h with
  | refl => exact .refl
  | stream f _ ih => exact ih.stream f
  | fetch v _ ih => exact ih.fetch v
  | signal c hn => exact absurd rfl hn
  | fault b hn => cases hn

theorem othersKept (h : Works n k s t) : OthersKept k s t := by
  induction h with
  | refl => exact OthersKept.refl k s
  | stream f _ ih => exact ih.trans (othersKept_onStream k f _)
  | fetch v _ ih => exact ih
  | signal c _ _ ih => exact ih.trans (othersKept_signal k c _)
  | fault b _ _ ih => exact ih.trans (OthersKept.of_eq fun j _ => setFault_stream ..)

theorem cmd (h : Works n k s t) : t.cmd = s.cmd := by
  induction h with
  | refl => rfl
  | stream _ _ ih | fetch _ _ ih => exact ih
  | signal c _ _ ih => exact (signal_cmd ..).trans ih
  | fault b _ _ ih => exact (setFault_cmd ..).trans ih

theorem engine (h : Works n k s t) : t.engine = s.engine := by
  induction h with
  | refl => rfl
  | stream _ _ ih | fetch _ _ ih => exact ih
  | signal c _ _ ih => exact (signal_engine ..).trans ih
  | fault b _ _ ih => exact (setFault_engine ..).trans ih

theorem fetchLast (h : Works n k s t) : t.fetchLast = s.fetchLast := by
  induction h with
  | refl => rfl
  | stream _ _ ih | fetch _ _ ih => exact ih
  | signal c _ _ ih => exact (signal_fetchLast ..).trans ih
  | fault b _ _ ih => exact (setFault_fetchLast ..).trans ih

theorem issued (h : Works n k s t) : t.issued = s.issued := by
  induction h with
  | refl => rfl
  | stream _ _ ih | fetch _ _ ih => exact ih
  | signal c _ _ ih => exact (signal_issued ..).trans ih
  | fault b _ _ ih => exact (setFault_issued ..).trans ih

theorem sameControl (h : Works n k s t) : SameControl s t := by
  induction h with
  | refl => exact ⟨rfl, rfl, rfl, rfl⟩
  | stream _ _ ih | fetch _ _ ih => exact ⟨ih.enable, ih.polliv, ih.tbaseLo, ih.tbaseHi⟩
  | signal c _ _ ih =>
      exact ⟨(signal_enable ..).trans ih.enable, (signal_polliv ..).trans ih.polliv, (signal_tbaseLo ..).trans ih.tbaseLo,
        (signal_tbaseHi ..).trans ih.tbaseHi⟩
  | fault b _ _ ih =>
      exact ⟨(setFault_enable ..).trans ih.enable, (setFault_polliv ..).trans ih.polliv,
        (setFault_tbaseLo ..).trans ih.tbaseLo, (setFault_tbaseHi ..).trans ih.tbaseHi⟩

theorem sameEventSetup (h : Works n k s t) : SameEventSetup s t := by
  induction h with
  | refl => exact ⟨rfl, rfl, rfl⟩
  | stream _ _ ih | fetch _ _ ih => exact ⟨ih.evmap, ih.msgEnabled, ih.msgVectors⟩
  | signal c _ _ ih =>
      exact ⟨(signal_evmap ..).trans ih.evmap, (signal_msgEnabled ..).trans ih.msgEnabled,
        (signal_msgVectors ..).trans ih.msgVectors⟩
  | fault b _ _ ih =>
      exact ⟨(setFault_evmap ..).trans ih.evmap, (setFault_msgEnabled ..).trans ih.msgEnabled,
        (setFault_msgVectors ..).trans ih.msgVectors⟩

theorem sameAround (h : Works n k s t) : SameAround s t where
  control := h.sameControl
  setup := h.sameEventSetup
  engine := h.engine
  engineLast := by
    induction h with
    | refl => rfl
    | stream _ _ ih | fetch _ _ ih => exact ih
    | signal c _ _ ih => exact (signal_engineLast ..).trans ih
    | fault b _ _ ih => exact (setFault_engineLast ..).trans ih
  pending := by
    induction h with
    | refl => rfl
    | stream _ _ ih | fetch _ _ ih => exact ih
    | signal c _ _ ih => exact (signal_pending ..).trans ih
    | fault b _ _ ih => exact (setFault_pending ..).trans ih

/-- Work that sets no DEVSTAT bit keeps DEVSTAT. -/
theorem sameStatus (h : Works n k s t) (hn : n ≠ .faults) : SameStatus s t := by
  induction h with
  | refl => exact ⟨rfl, rfl⟩
  | stream _ _ ih | fetch _ _ ih => exact ⟨ih.faults, ih.lastFault⟩
  | signal c _ _ ih => exact ⟨(signal_faults ..).trans ih.faults, (signal_lastFault ..).trans ih.lastFault⟩
  | fault b hf => exact absurd hf hn

/-- Silent work keeps the latches, INTx and the messages. -/
theorem sameEvents (h : Works .silent k s t) : SameEvents s t := by
  generalize hl : Loudness.silent = l at h
  induction h with
  | refl => exact ⟨rfl, rfl, rfl⟩
  | stream _ _ ih | fetch _ _ ih => exact ⟨ih.evlatch, ih.intx, ih.messages⟩
  | signal c hn => exact absurd hl.symm hn
  | fault b hn => rw [hn] at hl; cases hl

/-- Work clears no latch. -/
theorem latched (h : Works n k s t) (c : Cause) (hc : latched s.evlatch c = true) : latched t.evlatch c = true := by
  induction h with
  | refl => exact hc
  | stream _ _ ih | fetch _ _ ih => exact ih
  | signal d _ _ ih => rw [latched_signal, ih]; rfl
  | fault b _ _ ih =>
      rw [setFault, latched_signal]
      exact Bool.or_eq_true_iff.2 (Or.inl ih)

/-- Work clears no DEVSTAT bit. -/
theorem faults (h : Works n k s t) (i : Nat) (hi : s.faults.getLsbD i = true) : t.faults.getLsbD i = true := by
  induction h with
  | refl => exact hi
  | stream _ _ ih | fetch _ _ ih => exact ih
  | signal c _ _ ih => rw [signal_faults]; exact ih
  | fault b _ _ ih => rw [setFault_getLsbD, ih]; rfl

/-- Work keeps INTx in step with the latches. -/
theorem intxFollows (h : Works n k s t) (hs : IntxFollows s) : IntxFollows t := by
  induction h with
  | refl => exact hs
  | stream _ _ ih | fetch _ _ ih => exact ih
  | signal c _ _ ih => exact intxFollows_signal c _ ih
  | fault b _ _ ih => exact intxFollows_signal _ _ ih

end Works

/-! ## The shared operations as work on their stream -/

section operations

variable {n : Loudness} (k : StreamId) (s : State)

theorem works_endFetch : Works n k s (endFetch s) := .fetch none .refl

theorem works_markStale : Works n k s (markStale k s) := by
  rcases markStale_cases k s with h | ⟨_, _, _, _, _, h⟩
  · rw [h]; exact .refl
  · rw [h]; exact .fetch _ .refl

theorem works_notifyIf (b : Bool) (hn : n ≠ .silent) : Works n k s (notifyIf b s) := by
  unfold notifyIf
  split
  · exact .signal _ hn .refl
  · exact .refl

theorem works_enterStopped (hn : n ≠ .silent) : Works n k s (enterStopped k s) := .signal _ hn (.stream _ .refl)

theorem works_settleStop (hn : n ≠ .silent) : Works n k s (settleStop k s) := by
  rcases settleStop_cases k s with h | ⟨_, _, _, ⟨_, h⟩ | ⟨_, h⟩⟩
  · rw [h]; exact .refl
  · rw [h]; exact (Works.stream _ .refl).trans (works_enterStopped k _ hn)
  · rw [h]; exact .stream _ .refl

theorem works_awaitIfVoted : Works n k s (awaitIfVoted k s) := by
  rcases awaitIfVoted_cases k s with h | ⟨_, _, _, h⟩
  · rw [h]; exact .refl
  · rw [h]; exact .stream _ .refl

theorem works_failSpan (h : Halt) : Works n k s (failSpan k h s) := by
  cases hs : recordsFailure (s.stream k).state
  · rw [failSpan_of_not_records k h s hs]; exact .refl
  · rw [failSpan_of_records k h s hs]; exact .stream _ .refl

theorem works_failTake (addr : Nat) (echo : Seq) (code : Completion) : Works n k s (failTake k addr echo code s) :=
  (works_endFetch k s).trans (works_failSpan k _ _)

theorem works_failTaken (tid : Nat) (code : Completion) : Works n k s (failTaken k tid code s) := by
  unfold failTaken
  split
  · exact .refl
  · exact (Works.stream _ .refl).trans (works_failSpan k _ _)

theorem works_beginTake (addr : Nat) : Works n k s (beginTake k addr s) := by
  by_cases h : addr % 64 = 0
  · rw [beginTake_of_aligned k addr s h]; exact .fetch _ (.stream _ .refl)
  · rw [beginTake_of_misaligned k addr s h]; exact (Works.stream _ .refl).trans (works_failTake k _ _ _ _)

theorem works_followLink (anchor link : Nat) : Works n k s (followLink k anchor link s) := by
  unfold followLink
  split
  · exact works_beginTake k s link
  · split
    · exact (Works.stream _ .refl).trans (works_beginTake k _ _)
    · exact (Works.stream _ .refl).trans (works_beginTake k _ _)

end operations

end Sys2Proof.Machine
end

section
/-! PROOFS. Steps of one stream's record: what shows its state to the host, and the changes that keep its state, its tag and what
it holds. -/

namespace Sys2Proof.Machine

/-! ## The progress record that shows a stream's state (R189, R190) -/

/-- A write of a stream's progress record, to its progress address, that shows its state and its tag. -/
def ShowsState (x : Stream) (p : Nat) (w : Write) : Prop :=
  w.addr = p ∧ w.tag = .progress ∧ w.bytes.length = 64 ∧ fieldAt w.bytes 0x00 1 = stateCode x.state ∧
    fieldAt w.bytes 0x02 2 = x.tag.toNat

/-- A stream with a progress address has the record of its state queued, or owes it. -/
def Shown (x : Stream) : Prop :=
  ∀ p, x.progressAddr = some p → x.state ∈ x.owed ∨ ∃ w ∈ x.queue, ShowsState x p w

theorem showsState_recordWrite (k : StreamId) (x : Stream) (p : Nat) : ShowsState x p (recordWrite k x p) :=
  ⟨rfl, rfl, length_progressBytes .., progressBytes_state .., progressBytes_tag ..⟩

/-- A stream stays shown while its record is queued or owed. -/
theorem Shown.mono {x y : Stream} (h : Shown x) (hs : y.state = x.state) (ht : y.tag = x.tag)
    (hp : ∀ p, y.progressAddr = some p → x.progressAddr = some p) (ho : ∀ st ∈ x.owed, st ∈ y.owed)
    (hq : ∀ w ∈ x.queue, w.tag = .progress → w ∈ y.queue) : Shown y := by
  intro p py
  rcases h p (hp p py) with h | ⟨w, hw, h⟩
  · rw [hs]; exact Or.inl (ho _ h)
  · refine Or.inr ⟨w, hq w hw h.2.1, ?_⟩
    unfold ShowsState at h ⊢
    rw [hs, ht]; exact h

/-- A record handed over shows the stream's state. -/
theorem shown_handRecord (k : StreamId) (x : Stream) : Shown (handRecord k x) := by
  intro p hp
  rw [handRecord_progressAddr] at hp
  rw [handRecord_state]
  unfold handRecord
  rw [hp]
  dsimp only
  by_cases ho : x.owed = []
  · rw [if_pos ho]
    exact Or.inr ⟨recordWrite k x p, List.mem_append_right _ (List.mem_singleton.2 rfl), showsState_recordWrite k x p⟩
  · exact Or.inl (by simp [ho])

theorem shown_oweRecord (x : Stream) : Shown (oweRecord x) :=
  fun _ _ => Or.inl (by simp [oweRecord])

theorem shown_enterState (k : StreamId) (st : StreamState) (x : Stream) : Shown (enterState k st x) :=
  shown_handRecord k _

theorem shown_enterRest (k : StreamId) (st : StreamState) (x : Stream) : Shown (enterRest k st x) :=
  shown_handRecord k _

/-- A record handed over leaves the queue and the owed records in place. -/
theorem mem_handRecord_queue (k : StreamId) (x : Stream) (w : Write) (h : w ∈ x.queue) : w ∈ (handRecord k x).queue := by
  unfold handRecord
  split
  · exact h
  · split
    · exact List.mem_append_left _ h
    · exact h

/-- Owed records, handed over, show what they showed while they were owed. -/
theorem shown_handOwed (k : StreamId) {x : Stream} (h : Shown x) : Shown (handOwed k x) := by
  intro p hp
  rw [handOwed_progressAddr] at hp
  have e : handOwed k x = { x with
      queue := x.queue ++ x.owed.map (fun st => recordWrite k { x with state := st } p), owed := [] } := by
    unfold handOwed; rw [hp]
  rw [e]
  refine Or.inr ?_
  rcases h p hp with h | ⟨w, hw, h⟩
  · exact ⟨recordWrite k x p, List.mem_append_right _ (List.mem_map.2 ⟨x.state, h, rfl⟩), showsState_recordWrite k x p⟩
  · exact ⟨w, List.mem_append_left _ hw, h⟩

/-! ## Changes that keep a stream's state -/

/-- A change of a stream's record that keeps its state and its tag, shown if they were, and what the state says it holds. -/
structure Quiet (x y : Stream) : Prop where
  state : y.state = x.state
  tag : y.tag = x.tag
  shown : Shown x → Shown y
  holds : StreamHolds x → StreamHolds y

theorem Quiet.refl (x : Stream) : Quiet x x := ⟨rfl, rfl, id, id⟩

theorem Quiet.trans {x y z : Stream} (h : Quiet x y) (g : Quiet y z) : Quiet x z :=
  ⟨g.state.trans h.state, g.tag.trans h.tag, g.shown ∘ h.shown, g.holds ∘ h.holds⟩

/-- A change that keeps a stream's state keeps what the stream holds, when it keeps whether there is a context and brings in no
checkpoint and no span. -/
theorem StreamHolds.of_same {x y : Stream} (h : StreamHolds x) (hs : y.state = x.state) (hc : y.ctx.isSome = x.ctx.isSome)
    (h0 : x.slot0 = none → x.ctx = none → y.slot0 = none) (h1 : x.slot1 = none → x.ctx = none → y.slot1 = none)
    (ht : x.taken = [] → y.taken = []) : StreamHolds y := by
  obtain ⟨hctx, hslots, htaken⟩ := h
  refine ⟨by rw [hc, hs]; exact hctx, fun hu => ?_, fun hu => ht (htaken (by rw [← hs]; exact hu))⟩
  rw [hs] at hu
  rw [hu] at hctx
  have hn : x.ctx = none := by simpa using hctx
  exact ⟨h0 (hslots hu).1 hn, h1 (hslots hu).2 hn⟩

/-- A change of the chain, the waits, the counters and the like, and of the queue but for the progress records in it, is quiet. -/
theorem Quiet.of_kept {x y : Stream} (hs : y.state = x.state) (htag : y.tag = x.tag) (hp : y.progressAddr = x.progressAddr)
    (ho : y.owed = x.owed) (hc : y.ctx = x.ctx) (h0 : y.slot0 = x.slot0) (h1 : y.slot1 = x.slot1)
    (ht : x.taken = [] → y.taken = []) (hq : ∀ w ∈ x.queue, w.tag = .progress → w ∈ y.queue) : Quiet x y :=
  ⟨hs, htag, fun h => h.mono hs htag (fun p e => by rw [← hp]; exact e) (fun st m => by rw [ho]; exact m) hq,
    fun h => h.of_same hs (by rw [hc]) (fun e _ => by rw [h0]; exact e) (fun e _ => by rw [h1]; exact e) ht⟩

theorem quiet_pushWrite (w : Write) (x : Stream) : Quiet x (pushWrite w x) :=
  .of_kept rfl rfl rfl rfl rfl rfl rfl id fun _ h _ => List.mem_append_left _ h

theorem quiet_handRecord (k : StreamId) (x : Stream) : Quiet x (handRecord k x) :=
  ⟨by simp, by simp, fun _ => shown_handRecord k x,
    fun h => h.of_same (by simp) (by simp) (fun e _ => by simpa) (fun e _ => by simpa) (fun e => by simpa)⟩

theorem quiet_oweRecord (x : Stream) : Quiet x (oweRecord x) :=
  ⟨rfl, rfl, fun _ => shown_oweRecord x, fun h => h.of_same rfl rfl (fun e _ => e) (fun e _ => e) id⟩

theorem quiet_handOwed (k : StreamId) (x : Stream) : Quiet x (handOwed k x) :=
  ⟨by simp, by simp, fun h => shown_handOwed k h,
    fun h => h.of_same (by simp) (by simp) (fun e _ => by simpa) (fun e _ => by simpa) (fun e => by simpa)⟩

/-- A stream whose records go nowhere any more keeps its state. -/
theorem quiet_forgetAddr (x : Stream) : Quiet x { x with progressAddr := none } :=
  ⟨rfl, rfl, fun _ _ hp => (by cases hp), fun h => h.of_same rfl rfl (fun e _ => e) (fun e _ => e) id⟩

theorem quiet_endWait (x : Stream) : Quiet x (endWait x) :=
  .of_kept rfl rfl rfl rfl rfl rfl rfl id fun _ h _ => h

theorem quiet_onTaken (tid : Nat) (f : Taken → Taken) (x : Stream) : Quiet x (onTaken tid f x) :=
  .of_kept rfl rfl rfl rfl rfl rfl rfl (fun e => by simp [onTaken, e]) fun _ h _ => h

/-- Writes that enter ahead of a state word leave the queued ones in place. -/
theorem mem_pushAhead (ws : List Write) (x : Stream) (v : Write) : v ∈ (pushAhead ws x).queue ↔ v ∈ x.queue ∨ v ∈ ws := by
  have e := List.takeWhile_append_dropWhile (p := fun v => !newestFinish x v) (l := x.queue)
  conv_rhs => rw [← e]
  simp only [pushAhead, List.mem_append]
  tauto

theorem quiet_pushAhead (ws : List Write) (x : Stream) : Quiet x (pushAhead ws x) :=
  .of_kept rfl rfl rfl rfl rfl rfl rfl id fun w h _ => (mem_pushAhead ws x w).2 (Or.inl h)

/-- Writes dropped from the queue that are no progress records. -/
theorem quiet_dropWrites (p : Write → Bool) (hp : ∀ w, w.tag = .progress → p w = true) (x : Stream) :
    Quiet x { x with queue := x.queue.filter p } :=
  .of_kept rfl rfl rfl rfl rfl rfl rfl id fun w h hw => List.mem_filter.2 ⟨h, hp w hw⟩

theorem quiet_advanceActive (x : Stream) : Quiet x (advanceActive x) := by
  unfold advanceActive
  split
  · exact .refl x
  · exact (quiet_dropWrites _ (fun w hw => by simp [hw]) x).trans (quiet_pushAhead _ _)

theorem quiet_giveBackUnbegun (x : Stream) : Quiet x (giveBackUnbegun x) := by
  unfold giveBackUnbegun
  split
  · exact .refl x
  · exact (quiet_pushAhead _ x).trans
      (.of_kept rfl rfl rfl rfl rfl rfl rfl (fun e => by rw [pushAhead_taken] at e; simp [e]) fun _ h _ => h)

theorem quiet_closeChain (k : StreamId) (x : Stream) : Quiet x (closeChain k x) := by
  have hc : Quiet x { x with chain := Chain.empty } := .of_kept rfl rfl rfl rfl rfl rfl rfl id fun _ h _ => h
  have hd := hc.trans ((quiet_handOwed k _).trans (quiet_forgetAddr _))
  unfold closeChain
  split
  · split
    · exact hc.trans (quiet_pushWrite _ _)
    · exact hd
  · exact hd

theorem quiet_stageBlock (st : Staged) (x : Stream) : Quiet x (stageBlock st x) := by
  have h0 : Quiet x { x with staging := some st } := .of_kept rfl rfl rfl rfl rfl rfl rfl id fun _ h _ => h
  unfold stageBlock
  split
  · exact h0.trans (quiet_onTaken _ _ _)
  · exact .refl x

theorem quiet_pushActive (addr : Nat) (x : Stream) : Quiet x (pushActive addr x) := by
  unfold pushActive
  split
  · exact quiet_pushAhead _ x
  · exact quiet_pushWrite _ x

theorem quiet_expireTimer (x : Stream) : Quiet x (expireTimer x) := by
  unfold expireTimer
  split
  · exact .refl x
  · exact .of_kept rfl rfl rfl rfl rfl rfl rfl id fun _ h _ => h

/-! ### Finishes, releases and skips -/

theorem quiet_chainAfterReleased (t : Taken) (x : Stream) : Quiet x (chainAfterReleased t x) := by
  unfold chainAfterReleased
  split
  · exact .refl x
  · split <;> exact .of_kept rfl rfl rfl rfl rfl rfl rfl id fun _ h _ => h

theorem quiet_chainAfterFinished (t : Taken) (x : Stream) : Quiet x (chainAfterFinished t x) :=
  .of_kept rfl rfl rfl rfl rfl rfl rfl id fun _ h _ => h

theorem quiet_freeSlot (slot : Option Bool) (x : Stream) : Quiet x (freeSlot slot x) := by
  have h0 : Quiet x { x with slot0 := none } :=
    ⟨rfl, rfl, fun h => h.mono rfl rfl (fun _ e => e) (fun _ e => e) fun _ e _ => e,
      fun h => h.of_same rfl rfl (fun _ _ => rfl) (fun e _ => e) id⟩
  have h1 : Quiet x { x with slot1 := none } :=
    ⟨rfl, rfl, fun h => h.mono rfl rfl (fun _ e => e) (fun _ e => e) fun _ e _ => e,
      fun h => h.of_same rfl rfl (fun e _ => e) (fun _ _ => rfl) id⟩
  rcases slot with _ | _ | _
  · exact .refl x
  · exact h0
  · exact h1

/-- Spans that leave the list. -/
theorem quiet_dropTaken (p : Taken → Bool) (c : Counters) (x : Stream) :
    Quiet x { x with taken := x.taken.filter p, counters := c } :=
  .of_kept rfl rfl rfl rfl rfl rfl rfl (fun e => by simp [e]) fun _ h _ => h

theorem quiet_finishStream (k : StreamId) (t : Taken) (released : Bool) (x : Stream) : Quiet x (finishStream k t released x) := by
  have hx : Quiet x (if released then chainAfterReleased t x else chainAfterFinished t x) := by
    split
    · exact quiet_chainAfterReleased t x
    · exact quiet_chainAfterFinished t x
  exact hx.trans ((quiet_dropTaken _ _ _).trans ((quiet_freeSlot _ _).trans (quiet_handRecord k _)))

theorem quiet_releaseStream (k : StreamId) (why : ReleaseWhy) (addr : Nat) (sequence : Seq) (ok : Bool) (x : Stream) :
    Quiet x (releaseStream k why addr sequence ok x) := by
  have h0 : ∀ (c : Counters) (ch : Chain), Quiet x { x with counters := c, chain := ch } := fun _ _ =>
    .of_kept rfl rfl rfl rfl rfl rfl rfl id fun _ h _ => h
  have h1 : ∀ (c : Counters) (ch : Chain), Quiet x (handOwed k { x with counters := c, chain := ch }) := fun c ch =>
    (h0 c ch).trans (quiet_handOwed k _)
  unfold releaseStream
  cases why with
  | take =>
      dsimp only
      split
      · exact (h1 _ _).trans (quiet_handRecord k _)
      · exact h1 _ _
  | skip => exact h1 _ _
  | close => exact (h1 _ _).trans (quiet_forgetAddr _)

theorem quiet_skipStream (k : StreamId) (skipped : Nat) (h : Header) (x : Stream) : Quiet x (skipStream k skipped h x) := by
  have h1 : Quiet x { x with
      skip := none, position := .span h.link, counters := countReleased skipped h.sequence x.counters
      chain := chainAfterSkip skipped h x.chain } := .of_kept rfl rfl rfl rfl rfl rfl rfl id fun _ h _ => h
  unfold skipStream
  split
  · exact h1.trans ((quiet_oweRecord _).trans (quiet_pushWrite _ _))
  · exact h1.trans (quiet_handRecord k _)

/-! ### The engine's work -/

theorem quiet_handOver (x : Stream) (e : Emit) : Quiet x (handOver x e) := by
  cases e <;> unfold handOver <;> dsimp only <;> split
  · exact .refl x
  · exact quiet_pushWrite _ x
  · exact .refl x
  · exact quiet_pushWrite _ x
  · exact .refl x
  · exact (quiet_pushWrite _ x).trans ((quiet_pushWrite _ _).trans (quiet_onTaken _ _ _))

theorem quiet_foldl_handOver (es : List Emit) (x : Stream) : Quiet x (es.foldl handOver x) := by
  induction es generalizing x with
  | nil => exact .refl x
  | cons e es ih => exact (quiet_handOver x e).trans (ih _)

/-- A new signal context in the place of one. -/
theorem quiet_setCtx (c : SignalContext) (x : Stream) (h : x.ctx.isSome = true) : Quiet x { x with ctx := some c } :=
  ⟨rfl, rfl, fun h => h.mono rfl rfl (fun _ e => e) (fun _ e => e) fun _ e _ => e,
    fun hx => hx.of_same rfl h.symm (fun e _ => e) (fun e _ => e) id⟩

theorem quiet_finishRun (r : Run) (x : Stream) (h : x.ctx.isSome = true) : Quiet x (finishRun r x) :=
  (quiet_setCtx r.ctx x h).trans (quiet_foldl_handOver _ _)

theorem quiet_beginSpan (t : Taken) (x : Stream) : Quiet x (beginSpan t x) := by
  unfold beginSpan
  split
  · exact .refl x
  · next ctx hc =>
      refine Quiet.trans (y := { x with
        slot0 := if x.slot0.isSome then x.slot0 else some { ctx := ctx, span := t.addr }
        slot1 := if x.slot0.isSome then some { ctx := ctx, span := t.addr } else x.slot1
        ctx := some (startSpan t ctx)
        schedule := some (buildSchedule (startContext t.profile ctx).position t.header.count t.marks) }) ?_
        (quiet_onTaken _ _ _)
      refine ⟨rfl, rfl, fun h => h.mono rfl rfl (fun _ e => e) (fun _ e => e) fun _ e _ => e, fun hx => ?_⟩
      exact hx.of_same rfl (by simp [hc]) (fun _ e => by rw [hc] at e; cases e) (fun _ e => by rw [hc] at e; cases e) id

theorem quiet_processBlock (st : Staged) (x : Stream) : Quiet x (processBlock st x).1 := by
  have h0 : Quiet x { x with staging := none } := .of_kept rfl rfl rfl rfl rfl rfl rfl id fun _ h _ => h
  have h1 : ∀ t, Quiet x (if st.block = 0 then beginSpan t { x with staging := none } else { x with staging := none }) := by
    intro t
    split
    · exact h0.trans (quiet_beginSpan t _)
    · exact h0
  unfold processBlock
  split
  · exact h0
  · next t _ =>
      dsimp only
      split
      · next u ctx sched hu hc hs =>
          split
          · exact h1 t
          · exact ((h1 t).trans (quiet_finishRun _ _ (by rw [hc]; rfl))).trans ((quiet_onTaken _ _ _).trans
              (.of_kept rfl rfl rfl rfl rfl rfl rfl id fun _ h _ => h))
      · exact h1 t

theorem quiet_processFlush (x : Stream) : Quiet x (processFlush x) := by
  have h0 : Quiet x { x with flushMade := true } := .of_kept rfl rfl rfl rfl rfl rfl rfl id fun _ h _ => h
  unfold processFlush
  split
  · next t ctx ht hc =>
      split
      · exact h0
      · exact h0.trans (quiet_finishRun _ _ (by simp [hc]))
  · exact h0

end Sys2Proof.Machine
end

section
/-! PROOFS. What the work of one command on one stream keeps, said once for every piece of work: the resume tag rises at an entry
to STOPPED or HALTED alone, a transition is shown, and the stream holds what its state says. -/

namespace Sys2Proof.Machine

/-! ## Sound work -/

/-- RUNNING to HALTING: the states of an opened stream that is not at rest. -/
def atWork (st : StreamState) : Bool :=
  !unopened st && !atRest st

theorem atWork_iff (st : StreamState) : atWork st = true ↔ unopened st = false ∧ atRest st = false := by
  simp [atWork]

theorem atWork_of_follows {st : StreamState} (h : follows st = true) : atWork st = true := by
  cases st <;> simp_all [follows, atWork, unopened, atRest]

theorem atWork_of_recordsFailure {st : StreamState} (h : recordsFailure st = true) : atWork st = true := by
  cases st <;> simp_all [recordsFailure, atWork, unopened, atRest]

/-- The phase of a stream's fetch transaction fits the stream's state (R118, R173). -/
def PhaseFits (st : StreamState) (p : FetchPhase) : Prop :=
  (takePhase p = true → unopened st = false ∧ atRest st = false) ∧
    (∀ a, p = .entry a → st = .opening) ∧ ∀ e, p = .openProfile e → st = .opening

theorem phaseFits_of_atWork {st : StreamState} {p : FetchPhase} (h : atWork st = true) (ha : ∀ a, p ≠ .entry a)
    (he : ∀ e, p ≠ .openProfile e) : PhaseFits st p :=
  ⟨fun _ => (atWork_iff st).1 h, fun a e => absurd e (ha a), fun e h => absurd h (he e)⟩

theorem phaseFits_wait (st : StreamState) (target : WaitTarget) (a : Nat) (whole stale : Bool) :
    PhaseFits st (.wait target a whole stale) :=
  by simp [PhaseFits, takePhase]

theorem phaseFits_lane (st : StreamState) (tid block count : Nat) (reads : List ReadReq) :
    PhaseFits st (.lane tid block count reads) :=
  by simp [PhaseFits, takePhase]

/-- What the work on stream `k` from `s` to `t` keeps: the tag has risen exactly at an entry to STOPPED or HALTED (R130), a
transition is shown (R131), and the streams hold what their states say. -/
structure Sound (k : StreamId) (s t : State) : Prop where
  works : Works .faults k s t
  tag : (t.stream k).tag =
    if atRest (t.stream k).state = true ∧ atRest (s.stream k).state = false then (s.stream k).tag + 1 else (s.stream k).tag
  shown : (t.stream k).state ≠ (s.stream k).state → unopened (t.stream k).state = false → Shown (t.stream k)
  holds : StreamsHold s → StreamsHold t

namespace Sound

variable {k : StreamId} {s t : State}

theorem refl (k : StreamId) (s : State) : Sound k s s where
  works := .refl
  tag := by rw [if_neg]; rintro ⟨h, g⟩; rw [h] at g; cases g
  shown h := absurd rfl h
  holds := id

/-- A stream that is not at rest, or in the state it had, has the tag it had. -/
theorem tag_kept (h : Sound k s t) (hx : atRest (t.stream k).state = false ∨ (t.stream k).state = (s.stream k).state) :
    (t.stream k).tag = (s.stream k).tag := by
  rw [h.tag, if_neg]
  rintro ⟨h1, h2⟩
  rcases hx with e | e
  · rw [h1] at e; cases e
  · rw [e, h2] at h1; cases h1

/-- A change of the stream's record that is sound from where the work began. -/
theorem move (h : Sound k s t) (f : Stream → Stream)
    (htag : (f (t.stream k)).tag =
      if atRest (f (t.stream k)).state = true ∧ atRest (s.stream k).state = false then (s.stream k).tag + 1
      else (s.stream k).tag)
    (hshown : (f (t.stream k)).state ≠ (s.stream k).state → unopened (f (t.stream k)).state = false → Shown (f (t.stream k)))
    (hholds : StreamsHold s → StreamHolds (t.stream k) → StreamHolds (f (t.stream k)))
    (hfetch : StreamsHold s → ∀ p, t.fetch = some { stream := k, phase := p } → PhaseFits (t.stream k).state p →
      PhaseFits (f (t.stream k)).state p) : Sound k s (onStream k f t) where
  works := h.works.stream f
  tag := by rw [onStream_self]; exact htag
  shown := by rw [onStream_self]; exact hshown
  holds hs := by
    obtain ⟨hall, hf⟩ := h.holds hs
    refine ⟨fun j => ?_, fun txn htxn => ?_⟩
    · by_cases hj : j = k
      · subst hj; rw [onStream_self]; exact hholds hs (hall j)
      · rw [onStream_ne k j f t hj]; exact hall j
    · have old : PhaseFits (t.stream txn.stream).state txn.phase := hf txn htxn
      by_cases hj : txn.stream = k
      · have e : t.fetch = some { stream := k, phase := txn.phase } := by rw [← hj]; exact htxn
        rw [hj] at old ⊢
        rw [onStream_self]
        exact hfetch hs _ e old
      · rw [onStream_ne k _ f t hj]; exact old

/-- A quiet change is sound. -/
theorem quiet (h : Sound k s t) (f : Stream → Stream) (q : Quiet (t.stream k) (f (t.stream k))) : Sound k s (onStream k f t) :=
  h.move f (by rw [q.tag, q.state]; exact h.tag) (by rw [q.state]; exact fun hne hu => q.shown (h.shown hne hu))
    (fun _ => q.holds) fun _ p _ hp => by rw [q.state]; exact hp

/-- A transition between two states of a stream at work, shown. -/
theorem work (h : Sound k s t) (f : Stream → Stream) (hx : atWork (t.stream k).state = true)
    (hy : atWork (f (t.stream k)).state = true) (htag : (f (t.stream k)).tag = (t.stream k).tag)
    (hshown : Shown (f (t.stream k))) (hctx : (f (t.stream k)).ctx.isSome = (t.stream k).ctx.isSome) :
    Sound k s (onStream k f t) := by
  obtain ⟨ux, rx⟩ := (atWork_iff _).1 hx
  obtain ⟨uy, ry⟩ := (atWork_iff _).1 hy
  refine h.move f ?_ (fun _ _ => hshown) (fun _ hh => ⟨?_, ?_, ?_⟩) fun _ p _ hp => ⟨fun _ => ⟨uy, ry⟩, fun a e => ?_, fun e e1 => ?_⟩
  · rw [htag, h.tag_kept (Or.inl rx), ry]; simp
  · rw [hctx, hh.1, ux, uy]
  · rw [uy]; exact fun e => by cases e
  · rw [uy, ry]; rintro (e | e) <;> cases e
  · rw [hp.2.1 a e] at ux; cases ux
  · rw [hp.2.2 e e1] at ux; cases ux

theorem signal (h : Sound k s t) (c : Cause) : Sound k s (signal c t) where
  works := h.works.signal c (by simp)
  tag := by rw [signal_stream]; exact h.tag
  shown := by rw [signal_stream]; exact h.shown
  holds hs := by
    obtain ⟨hall, hf⟩ := h.holds hs
    exact ⟨fun j => by rw [signal_stream]; exact hall j, fun txn e => by
      rw [signal_stream]; exact hf txn (by rw [signal_fetch] at e; exact e)⟩

theorem fault (h : Sound k s t) (b : BitVec 4) : Sound k s (setFault b (streamBits k) t) where
  works := h.works.fault b rfl
  tag := by rw [setFault_stream]; exact h.tag
  shown := by rw [setFault_stream]; exact h.shown
  holds hs := by
    obtain ⟨hall, hf⟩ := h.holds hs
    exact ⟨fun j => by rw [setFault_stream]; exact hall j, fun txn e => by
      rw [setFault_stream]; exact hf txn (by rw [setFault_fetch] at e; exact e)⟩

/-- The fetch transaction becomes one of the stream that fits its state. -/
theorem setFetch (h : Sound k s t) (p : FetchPhase) (hp : StreamsHold s → PhaseFits (t.stream k).state p) :
    Sound k s { t with fetch := some { stream := k, phase := p } } where
  works := h.works.fetch _
  tag := h.tag
  shown := h.shown
  holds hs := ⟨(h.holds hs).1, fun txn e => by cases e; exact hp hs⟩

theorem endFetch (h : Sound k s t) : Sound k s (endFetch t) where
  works := h.works.fetch none
  tag := h.tag
  shown := h.shown
  holds hs := ⟨(h.holds hs).1, fun txn e => by cases e⟩

/-! ### The shared operations -/

/-- The entry of a stream that was not at rest to STOPPED or HALTED, with no span left and no take in progress. -/
theorem rest (h : Sound k s t) (st : StreamState) (hst : atRest st = true) (hx : atWork (t.stream k).state = true)
    (hs : atRest (s.stream k).state = false) (ht : (t.stream k).taken = []) (hf : taking t k = false) :
    Sound k s (onStream k (enterRest k st) t) := by
  obtain ⟨ux, rx⟩ := (atWork_iff _).1 hx
  have hu : unopened st = false := by cases st <;> simp_all [unopened, atRest]
  refine h.move _ ?_ (fun _ _ => shown_enterRest k st _) (fun _ hh => ⟨?_, ?_, ?_⟩) fun _ p hp hfit => ⟨fun e => ?_, fun a e => ?_, fun e e1 => ?_⟩
  · simp [hst, hs, h.tag_kept (Or.inl rx)]
  · simp [hu, hh.1, ux]
  · simp [hu]
  · simpa using fun _ => ht
  · rw [taking, hp] at hf; simp [e] at hf
  · rw [hfit.2.1 a e] at ux; cases ux
  · rw [hfit.2.2 e e1] at ux; cases ux

theorem enterState (h : Sound k s t) (st : StreamState) (hst : atWork st = true) (hx : atWork (t.stream k).state = true) :
    Sound k s (onStream k (enterState k st) t) :=
  h.work _ hx (by simpa) (by simp) (shown_enterState k st _) (by simp)

theorem settleStop (h : Sound k s t) (hs : (t.stream k).state = .stopping → atRest (s.stream k).state = false) :
    Sound k s (settleStop k t) := by
  rcases settleStop_cases k t with e | ⟨hx, _, hf, ⟨ht, e⟩ | ⟨_, e⟩⟩
  · rw [e]; exact h
  · rw [e]
    have h1 := h.quiet (fun y => { y with position := stopPosition y })
      (.of_kept rfl rfl rfl rfl rfl rfl rfl id fun _ h _ => h)
    refine (h1.rest .stopped rfl ?_ (hs hx) ?_ ?_).signal _
    · rw [onStream_self]; exact (congrArg atWork hx).trans rfl
    · rw [onStream_self]; exact ht
    · unfold fetching at hf
      unfold taking
      rw [onStream_fetch]
      revert hf
      cases t.fetch <;> simp +contextual
  · rw [e]; exact h.quiet _ (quiet_giveBackUnbegun _)

/-- A stop settles soundly where the work has kept the state. -/
theorem settleStop_same (h : Sound k s t) (hs : (t.stream k).state = (s.stream k).state) : Sound k s (Machine.settleStop k t) :=
  h.settleStop fun e => by rw [← hs, e]; rfl

theorem awaitIfVoted (h : Sound k s t) : Sound k s (awaitIfVoted k t) := by
  rcases awaitIfVoted_cases k t with e | ⟨hx, _, _, e⟩
  · rw [e]; exact h
  · rw [e]; exact h.enterState .awaitLink rfl (by rw [hx]; rfl)

theorem failSpan (h : Sound k s t) (halt : Halt) : Sound k s (failSpan k halt t) := by
  cases hr : recordsFailure (t.stream k).state
  · rw [failSpan_of_not_records k halt t hr]; exact h
  · rw [failSpan_of_records k halt t hr]
    exact h.work _ (atWork_of_recordsFailure hr) (by simp [enterHalting, atWork, unopened, atRest]) (by simp [enterHalting, endWait])
      (shown_enterState k _ _) (by simp [enterHalting, endWait])

theorem failTake (h : Sound k s t) (addr : Nat) (echo : Seq) (code : Completion) : Sound k s (failTake k addr echo code t) :=
  h.endFetch.failSpan _

theorem failTaken (h : Sound k s t) (tid : Nat) (code : Completion) : Sound k s (failTaken k tid code t) := by
  unfold Machine.failTaken
  split
  · exact h
  · exact (h.quiet _ (quiet_dropWrites _ (fun w hw => by simp [hw, ofFinish]) _)).failSpan _

theorem markStale (h : Sound k s t) : Sound k s (markStale k t) := by
  rcases markStale_cases k t with e | ⟨_, _, _, _, _, e⟩
  · rw [e]; exact h
  · rw [e]; exact h.setFetch _ fun _ => phaseFits_wait ..

theorem notifyIf (h : Sound k s t) (b : Bool) : Sound k s (notifyIf b t) := by
  unfold Machine.notifyIf
  split
  · exact h.signal _
  · exact h

theorem signalTimes (h : Sound k s t) (n : Nat) (c : Cause) : Sound k s (signalTimes n c t) := by
  induction n generalizing t with
  | zero => exact h
  | succ n ih => exact ih (h.signal c)

/-! ### Takes, links and waits -/

theorem beginTake (h : Sound k s t) (addr : Nat) (hw : StreamsHold s → atWork (t.stream k).state = true) :
    Sound k s (beginTake k addr t) := by
  have h1 := h.quiet (fun x => endWait { x with position := .span addr })
    (.of_kept rfl rfl rfl rfl rfl rfl rfl id fun _ h _ => h)
  by_cases ha : addr % 64 = 0
  · rw [beginTake_of_aligned k addr t ha]
    refine h1.setFetch _ fun hs => phaseFits_of_atWork ?_ (by simp) (by simp)
    rw [onStream_self]; exact hw hs
  · rw [beginTake_of_misaligned k addr t ha]; exact h1.failTake _ _ _

theorem followLink (h : Sound k s t) (anchor link : Nat) (hw : StreamsHold s → atWork (t.stream k).state = true) :
    Sound k s (followLink k anchor link t) := by
  have hc : ∀ g : Stream → Chain, Sound k s (onStream k (fun x => { x with chain := g x }) t) := fun g =>
    h.quiet _ (.of_kept rfl rfl rfl rfl rfl rfl rfl id fun _ h _ => h)
  have hw1 : ∀ g : Stream → Chain, StreamsHold s →
      atWork ((onStream k (fun x => { x with chain := g x }) t).stream k).state = true := fun g hs => by
    rw [onStream_self]; exact hw hs
  unfold Machine.followLink
  split
  · exact h.beginTake link hw
  · split
    · exact (hc _).beginTake _ (hw1 _)
    · exact (hc _).beginTake _ (hw1 _)

theorem takeActive (h : Sound k s t) (addr : Nat) (hd : Header) (marks : List Mark) (p : Option Profile)
    (hw : StreamsHold s → atWork (t.stream k).state = true) : Sound k s (takeActive k addr hd marks p t) := by
  refine (h.quiet _ (quiet_pushActive addr _)).setFetch _ fun hs => phaseFits_of_atWork ?_ (by simp) (by simp)
  rw [onStream_self, (quiet_pushActive addr _).state]; exact hw hs

theorem takeProfile (h : Sound k s t) (addr : Nat) (hd : Header) (marks : List Mark)
    (hw : StreamsHold s → atWork (t.stream k).state = true) : Sound k s (takeProfile k addr hd marks t) := by
  unfold Machine.takeProfile
  split
  · exact h.takeActive addr hd marks none hw
  · exact h.setFetch _ fun hs => phaseFits_of_atWork (hw hs) (by simp) (by simp)

theorem takeMarks (h : Sound k s t) (addr : Nat) (hd : Header) (hw : StreamsHold s → atWork (t.stream k).state = true) :
    Sound k s (takeMarks k addr hd t) := by
  unfold Machine.takeMarks
  split
  · exact h.takeProfile addr hd [] hw
  · exact h.setFetch _ fun hs => phaseFits_of_atWork (hw hs) (by simp) (by simp)

theorem takeHeader (h : Sound k s t) (addr : Nat) (hd : Header) (hw : StreamsHold s → atWork (t.stream k).state = true) :
    Sound k s (takeHeader k addr hd t) := by
  have q : Quiet (t.stream k) (if (t.stream k).skip = some addr then { t.stream k with skip := none } else t.stream k) := by
    split
    · exact .of_kept rfl rfl rfl rfl rfl rfl rfl id fun _ h _ => h
    · exact .refl _
  have h1 := h.quiet (fun x => if x.skip = some addr then { x with skip := none } else x) q
  unfold Machine.takeHeader
  dsimp only
  split
  · exact h1.failTake _ _ _
  · split
    · exact h1.failTake _ _ _
    · refine h1.takeMarks addr hd fun hs => ?_
      rw [onStream_self, q.state]; exact hw hs

theorem beginSkip (h : Sound k s t) (addr : Nat) (hd : Header) (hw : StreamsHold s → atWork (t.stream k).state = true) :
    Sound k s (beginSkip k addr hd t) := by
  have q := (quiet_endWait (t.stream k)).trans ((quiet_pushWrite (reportWrite addr (leBytes 4 (completionCode .skipped)) .skipCode) _).trans
    (quiet_pushWrite (stateWrite addr wordReleased .skipReleased) _))
  refine (h.quiet _ q).setFetch _ fun hs => phaseFits_of_atWork ?_ (by simp) (by simp)
  rw [onStream_self]; exact hw hs

theorem takeNotPosted (h : Sound k s t) : Sound k s (takeNotPosted k t) :=
  (h.endFetch.quiet _ (.of_kept rfl rfl rfl rfl rfl rfl rfl id fun _ h _ => h)).awaitIfVoted

theorem onHeader (h : Sound k s t) (addr : Nat) (hd : Header) (hw : StreamsHold s → atWork (t.stream k).state = true)
    (hs : (t.stream k).state = (s.stream k).state) : Sound k s (onHeader k addr hd t) := by
  unfold Machine.onHeader
  split
  · exact h.takeHeader addr hd hw
  · split
    · exact h.endFetch.settleStop_same hs
    · split
      · exact h.beginSkip addr hd hw
      · exact h.takeNotPosted

theorem continueWait (h : Sound k s t) : Sound k s (continueWait k t) := by
  refine (h.quiet _ ?_).awaitIfVoted
  split <;> exact .of_kept rfl rfl rfl rfl rfl rfl rfl id fun _ h _ => h

theorem linkRead (h : Sound k s t) (addr : Nat) (whole : Bool) (data : ReadResult)
    (hw : StreamsHold s → atWork (t.stream k).state = true) : Sound k s (linkRead k addr whole data t) := by
  unfold Machine.linkRead
  split
  · exact h.continueWait
  · split
    · exact h.continueWait
    · refine (h.quiet _ (.of_kept rfl rfl rfl rfl rfl rfl rfl id fun _ h _ => h)).followLink _ _ fun hs => ?_
      rw [onStream_self]; exact hw hs

theorem stateRead (h : Sound k s t) (addr : Nat) (data : ReadResult) (hw : StreamsHold s → atWork (t.stream k).state = true) :
    Sound k s (stateRead k addr data t) := by
  unfold Machine.stateRead
  split
  · exact h.continueWait
  · split
    · exact h.beginTake addr hw
    · exact h.continueWait

theorem skipRead (h : Sound k s t) (addr : Nat) (data : ReadResult) (hw : StreamsHold s → atWork (t.stream k).state = true) :
    Sound k s (skipRead k addr data t) := by
  unfold Machine.skipRead
  split
  · exact h.continueWait
  · dsimp only
    split
    · exact h.beginTake addr hw
    · split
      · exact h.beginSkip addr _ hw
      · exact h.continueWait

theorem endStale (h : Sound k s t) (hs : (t.stream k).state = (s.stream k).state) : Sound k s (endStale k t) := by
  unfold Machine.endStale
  split
  · exact h.quiet _ (quiet_closeChain k _)
  · exact h.settleStop_same hs

theorem startWaitRead (h : Sound k s t) (target : WaitTarget) (addr : Nat) : Sound k s (startWaitRead k target addr t) :=
  (h.quiet _ (.of_kept rfl rfl rfl rfl rfl rfl rfl id fun _ h _ => h)).setFetch _ fun _ => phaseFits_wait ..

theorem grantLane (h : Sound k s t) : Sound k s (grantLane k t) := by
  unfold Machine.grantLane
  split
  · exact h.setFetch _ fun _ => phaseFits_lane ..
  · exact h

theorem grantChain (h : Sound k s t) (hw : StreamsHold s → atWork (t.stream k).state = true) : Sound k s (grantChain k t) := by
  unfold Machine.grantChain
  dsimp only
  split
  · exact h
  · split
    · exact h.beginTake _ hw
    · exact h.startWaitRead _ _
  · split
    · exact h.followLink _ _ hw
    · exact h.startWaitRead _ _

/-! ### OPEN -/

/-- An OPEN fails: an OPENING stream is CLOSED with what it held, which is nothing. -/
theorem unopen (h : Sound k s t) (f : Stream → Stream) (hs : (t.stream k).state = (s.stream k).state)
    (ho : StreamsHold s → (s.stream k).state = .opening) (hf : t.fetch = none) (hst : (f (t.stream k)).state = .closed)
    (htag : (f (t.stream k)).tag = (t.stream k).tag) (hc : (f (t.stream k)).ctx = (t.stream k).ctx)
    (h0 : (f (t.stream k)).slot0 = (t.stream k).slot0) (h1 : (f (t.stream k)).slot1 = (t.stream k).slot1)
    (ht : (f (t.stream k)).taken = (t.stream k).taken) : Sound k s (onStream k f t) := by
  refine h.move f ?_ (fun _ hu => ?_) (fun hS hh => ?_) fun _ p e => ?_
  · rw [htag, hst, h.tag_kept (Or.inr hs)]; simp [atRest]
  · rw [hst] at hu; cases hu
  · have e : (t.stream k).state = .opening := hs.trans (ho hS)
    obtain ⟨hctx, hslots, htaken⟩ := hh
    rw [e] at hctx hslots htaken
    refine ⟨by rw [hc, hst]; exact hctx, fun _ => ?_, fun _ => ?_⟩
    · rw [h0, h1]; exact hslots rfl
    · rw [ht]; exact htaken (Or.inl rfl)
  · rw [hf] at e; cases e

theorem failOpenTable (h : Sound k s t) (hs : (t.stream k).state = (s.stream k).state)
    (ho : StreamsHold s → (s.stream k).state = .opening) : Sound k s (failOpenTable k t) :=
  ((h.endFetch.unopen _ hs ho rfl rfl rfl rfl rfl rfl rfl).fault _).signal _

theorem failOpenRecord (h : Sound k s t) (code : OpenCode) (addr : Nat) (hs : (t.stream k).state = (s.stream k).state)
    (ho : StreamsHold s → (s.stream k).state = .opening) : Sound k s (failOpenRecord k code addr t) :=
  (h.endFetch.unopen _ hs ho rfl rfl rfl rfl rfl rfl rfl).signal _

theorem failEntry (h : Sound k s t) (bytes : List Byte) (hs : (t.stream k).state = (s.stream k).state)
    (ho : StreamsHold s → (s.stream k).state = .opening) : Sound k s (failEntry k bytes t) := by
  unfold Machine.failEntry
  split
  · exact h.failOpenRecord _ _ hs ho
  · exact ((h.endFetch.unopen _ hs ho rfl rfl rfl rfl rfl rfl rfl).fault _).signal _

theorem openStream (h : Sound k s t) (e : ReelEntry) (p : Profile) (hs : (t.stream k).state = (s.stream k).state)
    (hf : t.fetch = none) : Sound k s (onStream k (openStream k e p) t) := by
  refine h.move _ ?_ (fun _ _ => shown_enterState k _ _) (fun _ _ => ⟨?_, ?_, ?_⟩) fun _ p e => ?_
  · simp [Machine.openStream, atRest, h.tag_kept (Or.inr hs)]
  · simp [Machine.openStream, unopened]
  · simp [Machine.openStream, unopened]
  · simp [Machine.openStream]
  · rw [hf] at e; cases e

theorem grantOpen (h : Sound k s t) (hs : (t.stream k).state = (s.stream k).state)
    (ho : (s.stream k).state = .opening) : Sound k s (grantOpen k t) := by
  have h1 := h.quiet (fun x => { x with openDue := false }) (.of_kept rfl rfl rfl rfl rfl rfl rfl id fun _ h _ => h)
  have e : ((onStream k (fun x => { x with openDue := false }) t).stream k).state = (s.stream k).state := by
    rw [onStream_self]; exact hs
  unfold Machine.grantOpen
  dsimp only
  split
  · exact h1.failOpenTable e fun _ => ho
  · refine h1.setFetch _ fun _ => ⟨fun e => by simp [takePhase] at e, fun _ _ => e.trans ho, fun _ e => by cases e⟩

/-! ### What follows a write -/

theorem notifyIf_stream (b : Bool) (j : StreamId) (t : State) : (Machine.notifyIf b t).stream j = t.stream j := by
  unfold Machine.notifyIf
  split
  · exact signal_stream ..
  · rfl

theorem finishDone (h : Sound k s t) (tid : Nat) (released : Bool) (hs : (t.stream k).state = (s.stream k).state) :
    Sound k s (finishDone k tid released t) := by
  unfold Machine.finishDone
  split
  · exact h
  · next u _ =>
      refine ((h.quiet _ (quiet_finishStream k u released _)).notifyIf _).settleStop_same ?_
      rw [notifyIf_stream, onStream_self, (quiet_finishStream k u released _).state, hs]

/-- The state of a stream that has taken a span: AWAIT_LINK has become RUNNING. -/
theorem takeStream_state (addr : Nat) (hd : Header) (marks : List Mark) (p : Option Profile) (x : Stream) :
    (takeStream k addr hd marks p x).state = if x.state = .awaitLink then .running else x.state := by
  unfold takeStream
  by_cases hx : x.state = .awaitLink <;> cases finishedAnchor x.chain <;> simp [hx, endWait, pushWrite]

theorem takeStream_kept (addr : Nat) (hd : Header) (marks : List Mark) (p : Option Profile) (x : Stream) :
    (takeStream k addr hd marks p x).tag = x.tag ∧ (takeStream k addr hd marks p x).ctx = x.ctx ∧
      (takeStream k addr hd marks p x).slot0 = x.slot0 ∧ (takeStream k addr hd marks p x).slot1 = x.slot1 := by
  unfold takeStream
  by_cases hx : x.state = .awaitLink <;> cases finishedAnchor x.chain <;> simp [hx, endWait, pushWrite]

theorem shown_takeStream (addr : Nat) (hd : Header) (marks : List Mark) (p : Option Profile) (x : Stream)
    (h : x.state = .awaitLink ∨ Shown x) : Shown (takeStream k addr hd marks p x) := by
  have keep : ∀ {y : Stream} (w : Write), Shown y → Shown (pushWrite w y) := fun w => (quiet_pushWrite w _).shown
  unfold takeStream
  by_cases hx : x.state = .awaitLink
  · cases finishedAnchor x.chain <;> simp only [hx, beq_self_eq_true, if_true]
    · exact shown_handRecord k _
    · exact keep _ (shown_oweRecord _)
  · have hy : Shown x := h.resolve_left hx
    have hb : (x.state == .awaitLink) = false := beq_false_of_ne hx
    cases finishedAnchor x.chain <;> simp only [hb, Bool.false_eq_true, if_false]
    · exact hy.mono rfl rfl (fun _ e => e) (fun _ e => e) fun _ e _ => e
    · exact keep _ (hy.mono rfl rfl (fun _ e => e) (fun _ e => e) fun _ e _ => e)

theorem takeStream (h : Sound k s t) (addr : Nat) (hd : Header) (marks : List Mark) (p : Option Profile)
    (hw : StreamsHold s → atWork (t.stream k).state = true) : Sound k s (onStream k (takeStream k addr hd marks p) t) := by
  obtain ⟨htag, hctx, h0, h1⟩ := takeStream_kept (k := k) addr hd marks p (t.stream k)
  have hst := takeStream_state (k := k) addr hd marks p (t.stream k)
  by_cases hx : (t.stream k).state = .awaitLink
  · exact h.work _ (by rw [hx]; rfl) (by rw [hst, if_pos hx]; rfl) htag (shown_takeStream _ _ _ _ _ (Or.inl hx)) (by rw [hctx])
  · rw [if_neg hx] at hst
    refine h.move _ ?_ (fun hne hu => shown_takeStream _ _ _ _ _ (Or.inr ?_)) (fun hS hh => ⟨?_, ?_, ?_⟩) fun _ q _ hq => ?_
    · rw [htag, hst]; exact h.tag
    · rw [hst] at hne hu; exact h.shown hne hu
    · rw [hctx, hst]; exact hh.1
    · rw [hst, h0, h1]; exact hh.2.1
    · obtain ⟨hu, hr⟩ := (atWork_iff _).1 (hw hS)
      rw [hst, hu, hr]; rintro (e | e) <;> cases e
    · rw [hst]; exact hq

theorem activeDone (h : Sound k s t) (hs : (t.stream k).state = (s.stream k).state)
    (hf : StreamsHold s → ∀ p, t.fetch = some { stream := k, phase := p } → PhaseFits (t.stream k).state p) :
    Sound k s (activeDone k t) := by
  unfold Machine.activeDone
  split
  · next j addr hd marks p e =>
      split
      · next hj =>
          subst hj
          have h1 := h.endFetch.takeStream addr hd marks p fun hS => (atWork_iff _).2 ((hf hS _ e).1 rfl)
          refine h1.settleStop fun hx => ?_
          rw [onStream_self, takeStream_state] at hx
          rw [← hs]
          revert hx
          rw [endFetch_stream]
          split
          · exact fun hx => by cases hx
          · intro hx; rw [hx]; rfl
      · exact h
  · exact h

theorem skipDone (h : Sound k s t) (hs : (t.stream k).state = (s.stream k).state) : Sound k s (skipDone k t) := by
  unfold Machine.skipDone
  split
  · next j addr hd e =>
      split
      · next hj =>
          subst hj
          have h1 := (h.endFetch.quiet _ (quiet_skipStream j addr hd _)).notifyIf hd.notify
          have e1 : ((Machine.notifyIf hd.notify (onStream j (skipStream j addr hd) (Machine.endFetch t))).stream j).state =
              (t.stream j).state := by
            rw [notifyIf_stream, onStream_self, (quiet_skipStream j addr hd _).state]; rfl
          dsimp only
          split
          · next hfo => exact h1.beginTake _ fun _ => by rw [e1]; exact atWork_of_follows hfo
          · exact h1.settleStop_same (e1.trans hs)
      · exact h
  · exact h

theorem skipFailed (h : Sound k s t) : Sound k s (skipFailed k t) := by
  unfold Machine.skipFailed
  split
  · split
    · exact (h.quiet _ (quiet_dropWrites _ (fun w hw => by simp [hw]) _)).failTake _ _ _
    · exact h
  · exact h

theorem activeFailed (h : Sound k s t) : Sound k s (activeFailed k t) := by
  unfold Machine.activeFailed
  split
  · split
    · exact h.failTake _ _ _
    · exact h
  · exact h

theorem giveBackDone (h : Sound k s t) (tid : Nat) (hs : (t.stream k).state = (s.stream k).state) :
    Sound k s (giveBackDone k tid t) := by
  refine (h.quiet _ (quiet_dropTaken _ _ _)).settleStop_same ?_
  rw [onStream_self]; exact hs

theorem onDone (w : Write) (s : State) : Sound k s (onDone k w s) := by
  have h := Sound.refl k s
  unfold Machine.onDone
  split
  case h_7 => exact h.finishDone _ _ rfl
  case h_8 => exact h.activeDone rfl fun hS p e => hS.2 _ e
  case h_9 => exact h.giveBackDone _ rfl
  case h_10 => exact h.quiet _ (quiet_releaseStream ..)
  case h_11 => exact h.skipDone rfl
  all_goals exact h

theorem onFailed (w : Write) (s : State) : Sound k s (onFailed k w s) := by
  have h := Sound.refl k s
  have hf := h.fault faultState
  unfold Machine.onFailed
  split
  case h_1 | h_2 => exact h.failTaken _ _
  case h_3 | h_4 | h_6 => exact hf.failTaken _ _
  case h_5 => exact hf.activeFailed
  case h_7 => exact hf.quiet _ (quiet_releaseStream ..)
  case h_8 | h_9 => exact hf.skipFailed
  case h_10 => exact hf
  case h_11 => exact h.fault _

end Sound

end Sys2Proof.Machine
end

section
/-! PROOFS. Every command that does work of the part is sound work on one stream, and then a drain. -/

namespace Sys2Proof.Machine

/-! ## Accepted commands -/

/-- The state a completed command leaves. -/
theorem eq_of_next {a b : State} (h : (Host.Outcome.next a : Host.Outcome State Fault Refusal) = .next b) : b = a := by
  injection h with h; exact h.symm

namespace Sound

variable {k : StreamId} {s : State}

theorem acceptIf_eq_accepted {b : Bool} : acceptIf b = .accepted ↔ b = true := by
  cases b <;> simp [acceptIf]

theorem taking_markStale (j k : StreamId) (s : State) : taking (Machine.markStale k s) j = taking s j := by
  rcases markStale_cases k s with e | ⟨_, _, _, _, hf, e⟩
  · rw [e]
  · rw [e, taking, taking, hf]; simp [takePhase]

theorem acceptOpen (hx : (s.stream k).state = .closed) : Sound k s (acceptOpen k s) := by
  refine (Sound.refl k s).move _ (by simp [atRest]) (fun _ hu => by cases hu) (fun _ hh => ⟨?_, ?_, ?_⟩) fun _ p _ hp =>
    ⟨fun e => ?_, fun _ _ => rfl, fun _ _ => rfl⟩
  · have := hh.1; rw [hx] at this; exact this
  · exact fun _ => ⟨rfl, rfl⟩
  · exact fun _ => rfl
  · have := (hp.1 e).1; rw [hx] at this; cases this

theorem acceptStop (hx : follows (s.stream k).state = true) : Sound k s (acceptStop k s) := by
  have h := Sound.refl k s
  have hw := atWork_of_follows hx
  have hrest := ((atWork_iff _).1 hw).2
  unfold Machine.acceptStop
  dsimp only
  split
  · next hc =>
      obtain ⟨_, htaken, htaking⟩ := hc
      refine ((h.quiet _ (quiet_endWait _)).markStale.rest .stopped rfl ?_ hrest ?_ ?_).signal _
      · rw [markStale_stream, onStream_self]; exact hw
      · rw [markStale_stream, onStream_self]; exact htaken
      · rw [taking_markStale]; exact htaking
  · have q := quiet_advanceActive
      (Machine.enterState k .stopping (endWait { s.stream k with flushMade := false, gaveBack := false }))
    have h1 := h.work (fun y => advanceActive (Machine.enterState k .stopping (endWait { y with flushMade := false, gaveBack := false })))
      hw (by rw [q.state, enterState_state]; rfl) (by rw [q.tag, enterState_tag]; rfl) (q.shown (shown_enterState k _ _))
      (by unfold advanceActive; split <;> simp [endWait])
    exact h1.markStale.settleStop fun _ => hrest

theorem acceptAbort (hx : atWork (s.stream k).state = true) : Sound k s (acceptAbort k s) := by
  refine Sound.markStale (Sound.work (Sound.refl k s) _ hx ?_ ?_ (shown_enterState k _ _) ?_)
  · rw [enterState_state]; rfl
  · rw [enterState_tag, endWait_tag]
  · rw [enterState_ctx, endWait_ctx]

theorem acceptResume (skip : Bool) (hx : atRest (s.stream k).state = true) : Sound k s (acceptResume k skip s) := by
  have hu : unopened (s.stream k).state = false := by
    revert hx; cases (s.stream k).state <;> simp [atRest, unopened]
  have hk : ∀ x : Stream, (forgetLink x).tag = x.tag ∧ (forgetLink x).ctx = x.ctx := fun x => by
    unfold forgetLink; split <;> exact ⟨rfl, rfl⟩
  refine (Sound.refl k s).move _ ?_ (fun _ _ => shown_enterState k _ _) (fun _ hh => ⟨?_, ?_, ?_⟩) fun _ p _ hp =>
    ⟨fun _ => ?_, fun a e => ?_, fun a e => ?_⟩
  · simp [atRest, (hk _).1]
  · rw [enterState_ctx, (hk _).2, enterState_state]; exact hh.1.trans (by rw [hu]; rfl)
  · rw [enterState_state]; exact fun e => by cases e
  · rw [enterState_state]; rintro (e | e) <;> cases e
  · rw [enterState_state]; exact ⟨rfl, rfl⟩
  · rw [hp.2.1 a e] at hu; cases hu
  · rw [hp.2.2 a e] at hu; cases hu

theorem acceptClose (hx : atRest (s.stream k).state = true) : Sound k s (acceptClose k s) := by
  have hu : unopened (s.stream k).state = false := by
    revert hx; cases (s.stream k).state <;> simp [atRest, unopened]
  have h1 : Sound k s (onStream k discardStream s) := by
    refine (Sound.refl k s).move _ ?_ (fun _ hu => by cases hu) (fun _ _ => ⟨rfl, fun _ => ⟨rfl, rfl⟩, fun _ => rfl⟩)
      fun _ p _ hp => ⟨fun e => ?_, fun a e => ?_, fun a e => ?_⟩
    · simp [discardStream, endWait, oweRecord, atRest]
    · have := (hp.1 e).2; rw [hx] at this; cases this
    · rw [hp.2.1 a e] at hu; cases hu
    · rw [hp.2.2 a e] at hu; cases hu
  unfold Machine.acceptClose
  dsimp only
  split
  · exact h1.markStale.signal _
  · exact (h1.markStale.signal _).quiet _ (quiet_closeChain k _)

theorem acceptPoll : Sound k s (acceptPoll k s) := by
  have h := Sound.refl k s
  unfold Machine.acceptPoll
  split
  · split <;> exact h.quiet _ (.of_kept rfl rfl rfl rfl rfl rfl rfl id fun _ h _ => h)
  · exact h

/-- What an accepted command does is sound. -/
theorem perform (c : CmdReg) (hj : judge c.code c.tag (s.stream k) = .accepted) : Sound k s (perform c k s) := by
  unfold judge at hj
  unfold Machine.perform
  split
  · next hc => rw [if_pos hc, acceptIf_eq_accepted] at hj; exact acceptOpen (by simpa using hj)
  next hc =>
  rw [if_neg hc] at hj
  split
  · next hc =>
      rw [if_pos hc, acceptIf_eq_accepted] at hj
      refine acceptStop ?_
      revert hj; cases (s.stream k).state <;> simp [follows]
  next hc =>
  rw [if_neg hc] at hj
  split
  · next hc =>
      rw [if_pos hc, acceptIf_eq_accepted] at hj
      refine acceptAbort ?_
      revert hj; cases (s.stream k).state <;> simp [atWork, unopened, atRest]
  next hc =>
  rw [if_neg hc] at hj
  split
  · next hc =>
      rw [if_pos hc] at hj
      refine acceptResume c.skip ?_
      by_contra hn
      rw [if_neg hn] at hj
      cases hj
  next hc =>
  rw [if_neg hc] at hj
  split
  · next hc => rw [if_pos hc, acceptIf_eq_accepted] at hj; exact acceptClose hj
  next hc =>
  split
  · exact acceptPoll
  · exact Sound.refl k s

end Sound

/-! ## The work of a command -/

/-- Where the work of a command begins: the state before it but for the arbiters, the engine, the CMD register and the report of a
write. -/
structure Starts (s u : State) : Prop where
  streams : u.streams = s.streams
  fetch : u.fetch = s.fetch
  control : SameControl s u
  setup : SameEventSetup s u
  status : SameStatus s u
  events : SameEvents s u
  issued : u.issued.Sublist s.issued

theorem Starts.refl (s : State) : Starts s s :=
  ⟨rfl, rfl, ⟨rfl, rfl, rfl, rfl⟩, ⟨rfl, rfl, rfl⟩, ⟨rfl, rfl⟩, ⟨rfl, rfl, rfl⟩, List.Sublist.refl _⟩

theorem Starts.stream {s u : State} (h : Starts s u) (k : StreamId) : u.stream k = s.stream k := by
  rw [State.stream, State.stream, h.streams]

/-- A command does sound work on one stream and then issues what can be issued; but for a command judged CMD stays. -/
def WorkDone (keepsCmd : Prop) (s t : State) : Prop :=
  ∃ k u v, Starts s u ∧ (keepsCmd → u.cmd = s.cmd) ∧ Sound k u v ∧ (t = v ∨ t = drain v)

theorem workDone_refl (p : Prop) (s : State) : WorkDone p s s :=
  ⟨0, s, s, .refl s, fun _ => rfl, .refl 0 s, Or.inl rfl⟩

/-- Work from the state itself. -/
theorem Sound.workDone {k : StreamId} {s t : State} (h : Sound k s t) (p : Prop) : WorkDone p s (drain t) :=
  ⟨k, s, t, .refl s, fun _ => rfl, h, Or.inr rfl⟩

theorem workDone_commandDispatch {s t : State} (h : exec .commandDispatch s = .next t) : WorkDone False s t := by
  rw [exec_commandDispatch, execCommandDispatch] at h
  split at h
  · rw [eq_of_next h]; exact workDone_refl _ s
  · next k _ =>
      rw [eq_of_next h]
      have start : ∀ r, Starts s (s.judged r) := fun r =>
        ⟨rfl, rfl, ⟨rfl, rfl, rfl, rfl⟩, ⟨rfl, rfl, rfl⟩, ⟨rfl, rfl⟩, ⟨rfl, rfl, rfl⟩, List.Sublist.refl _⟩
      by_cases hj : judge s.cmd.code s.cmd.tag (s.stream k) = .accepted
      · rw [dispatchTo_of_accepted hj]
        have hp : Sound k (s.judged .accepted) (perform s.cmd k (s.judged .accepted)) := Sound.perform s.cmd hj
        exact ⟨k, _, _, start _, fun e => e.elim, hp, Or.inr rfl⟩
      · rw [dispatchTo_of_refused hj]
        exact ⟨k, _, _, start _, fun e => e.elim, .refl k _, Or.inl rfl⟩

section fetch

variable {s t : State}

theorem atWork_of_taking {k : StreamId} {p : FetchPhase} (hf : s.fetch = some { stream := k, phase := p })
    (hp : takePhase p = true) (hs : StreamsHold s) : atWork (s.stream k).state = true :=
  (atWork_iff _).2 ((hs.2 _ hf).1 hp)

theorem workDone_fetchGrant (h : execFetchGrant s = .next t) : WorkDone True s t := by
  unfold execFetchGrant at h
  split at h
  · split at h
    · rw [eq_of_next h]; exact workDone_refl _ s
    · next k hk =>
        rw [eq_of_next h]
        have start : Starts s { s with fetchLast := k } :=
          ⟨rfl, rfl, ⟨rfl, rfl, rfl, rfl⟩, ⟨rfl, rfl, rfl⟩, ⟨rfl, rfl⟩, ⟨rfl, rfl, rfl⟩, List.Sublist.refl _⟩
        refine ⟨k, _, _, start, fun _ => rfl, ?_, Or.inr rfl⟩
        have h0 := Sound.refl k { s with fetchLast := k }
        have hreq := firstAfter_some hk
        unfold requests at hreq
        unfold grantFetch
        dsimp only at hreq ⊢
        split
        · next ho =>
            simp only [needsOpenRead, Bool.and_eq_true, beq_iff_eq] at ho
            exact h0.grantOpen rfl ho.1
        · next ho =>
            split
            · exact h0.grantLane
            · next hl =>
                simp only [ho, hl, Bool.false_or, Bool.and_eq_true, needsChainRead] at hreq
                exact h0.grantChain fun _ => atWork_of_follows hreq.1.1.1.1
  · rw [eq_of_next h]; exact workDone_refl _ s

theorem workDone_laneReadDone {lanes : List ReadResult} (h : execLaneReadDone lanes s = .next t) : WorkDone True s t := by
  unfold execLaneReadDone at h
  split at h
  · next k tid block count reads hf =>
      split at h
      · rw [eq_of_next h]
        refine (((Sound.refl k s).endFetch.quiet _ (quiet_stageBlock _ _)).settleStop_same ?_).workDone _
        rw [onStream_self]; exact (quiet_stageBlock _ _).state
      · rw [eq_of_next h]; exact workDone_refl _ s
  · rw [eq_of_next h]; exact workDone_refl _ s

theorem workDone_headerReadDone {data : ReadResult} (h : execHeaderReadDone data s = .next t) : WorkDone True s t := by
  unfold execHeaderReadDone at h
  split at h
  · next k addr hf =>
      split at h <;> rw [eq_of_next h]
      · exact ((Sound.refl k s).failTake _ _ _).workDone _
      · exact ((Sound.refl k s).onHeader _ _ (atWork_of_taking hf rfl) rfl).workDone _
  · rw [eq_of_next h]; exact workDone_refl _ s

theorem workDone_marksReadDone {data : ReadResult} (h : execMarksReadDone data s = .next t) : WorkDone True s t := by
  unfold execMarksReadDone at h
  split at h
  · next k addr hd hf =>
      split at h <;> rw [eq_of_next h]
      · exact ((Sound.refl k s).failTake _ _ _).workDone _
      · exact ((Sound.refl k s).takeProfile _ _ _ (atWork_of_taking hf rfl)).workDone _
  · rw [eq_of_next h]; exact workDone_refl _ s

theorem workDone_takeProfileReadDone {data : ReadResult} (h : execTakeProfileReadDone data s = .next t) :
    WorkDone True s t := by
  unfold execTakeProfileReadDone at h
  split at h
  · next k addr hd marks hf =>
      split at h <;> rw [eq_of_next h]
      · exact ((Sound.refl k s).failTake _ _ _).workDone _
      · exact ((Sound.refl k s).takeActive _ _ _ _ (atWork_of_taking hf rfl)).workDone _
  · rw [eq_of_next h]; exact workDone_refl _ s

theorem workDone_waitReadDone {data : ReadResult} (h : execWaitReadDone data s = .next t) : WorkDone True s t := by
  unfold execWaitReadDone at h
  split at h
  · next k target addr whole stale hf =>
      have h0 := (Sound.refl k s).endFetch
      split at h
      · rw [eq_of_next h]; exact (h0.endStale rfl).workDone _
      · next hc =>
          have hw : StreamsHold s → atWork ((endFetch s).stream k).state = true := fun _ =>
            atWork_of_follows (by simpa using (not_or.1 hc).2)
          split at h
          · rw [eq_of_next h]; exact (h0.linkRead _ _ _ hw).workDone _
          · split at h <;> rw [eq_of_next h]
            · exact (h0.skipRead _ _ hw).workDone _
            · exact (h0.stateRead _ _ hw).workDone _
  · rw [eq_of_next h]; exact workDone_refl _ s

theorem workDone_entryReadDone {data : ReadResult} (h : execEntryReadDone data s = .next t) : WorkDone True s t := by
  unfold execEntryReadDone at h
  split at h
  · next k addr hf =>
      have h0 := Sound.refl k s
      have ho : StreamsHold s → (s.stream k).state = .opening := fun hs => (hs.2 _ hf).2.1 addr rfl
      split at h
      · rw [eq_of_next h]; exact (h0.failOpenTable rfl ho).workDone _
      · split at h <;> rw [eq_of_next h]
        · exact (h0.failEntry _ rfl ho).workDone _
        · exact ⟨k, s, _, .refl s, fun _ => rfl, h0.setFetch _ fun hs =>
            by simp [PhaseFits, takePhase, ho hs], Or.inl rfl⟩
  · rw [eq_of_next h]; exact workDone_refl _ s

theorem workDone_openProfileReadDone {data : ReadResult} (h : execOpenProfileReadDone data s = .next t) :
    WorkDone True s t := by
  unfold execOpenProfileReadDone at h
  split at h
  · next k e hf =>
      have h0 := Sound.refl k s
      have ho : StreamsHold s → (s.stream k).state = .opening := fun hs => (hs.2 _ hf).2.2 e rfl
      split at h <;> rw [eq_of_next h]
      · exact (h0.failOpenRecord _ _ rfl ho).workDone _
      · exact (h0.endFetch.openStream e _ rfl rfl).workDone _
  · rw [eq_of_next h]; exact workDone_refl _ s

end fetch

theorem workDone_pollTimerExpiry {s t : State} {k : StreamId} (h : execPollTimerExpiry k s = .next t) : WorkDone True s t := by
  rw [eq_of_next h]
  exact ⟨k, s, _, .refl s, fun _ => rfl, (Sound.refl k s).quiet _ (quiet_expireTimer _), Or.inl rfl⟩

theorem workDone_engineGrant {s t : State} (h : execEngineGrant s = .next t) : WorkDone True s t := by
  unfold execEngineGrant at h
  split at h
  · split at h
    · rw [eq_of_next h]; exact workDone_refl _ s
    · next k hk =>
        rw [eq_of_next h]
        -- the whole work of the grant as one change of the stream's record
        have q : ∀ done : Stream × Nat, Quiet (s.stream k) done.1 →
            WorkDone True s (drain { s.setStream k done.1 with
              engine := some { stream := k, laneChanges := done.2 }, engineLast := k }) := by
          intro done hq
          refine ⟨k, { s with engine := some { stream := k, laneChanges := done.2 }, engineLast := k }, _,
            ⟨rfl, rfl, ⟨rfl, rfl, rfl, rfl⟩, ⟨rfl, rfl, rfl⟩, ⟨rfl, rfl⟩, ⟨rfl, rfl, rfl⟩, List.Sublist.refl _⟩, fun _ => rfl,
            (Sound.refl k _).quiet (fun _ => done.1) hq, Or.inr rfl⟩
        refine q _ ?_
        split
        · split
          · exact quiet_processBlock _ _
          · exact quiet_processFlush _
        · exact quiet_processFlush _
  · rw [eq_of_next h]; exact workDone_refl _ s

theorem workDone_blockEnd {s t : State} (h : execBlockEnd s = .next t) : WorkDone True s t := by
  unfold execBlockEnd at h
  split at h
  · rw [eq_of_next h]; exact workDone_refl _ s
  · next e he =>
      rw [eq_of_next h]
      refine ⟨e.stream, { s with engine := none }, _,
        ⟨rfl, rfl, ⟨rfl, rfl, rfl, rfl⟩, ⟨rfl, rfl, rfl⟩, ⟨rfl, rfl⟩, ⟨rfl, rfl, rfl⟩, List.Sublist.refl _⟩, fun _ => rfl, ?_,
        Or.inr rfl⟩
      have h1 := (Sound.refl e.stream { s with engine := none }).signalTimes e.laneChanges .laneChange
      unfold afterBlock
      split
      · exact h1.awaitIfVoted
      · exact h1.settleStop_same (by rw [signalTimes_stream])
      · exact h1

/-- What a rollback leaves keeps the state and the tag, and whether there is a context; no span is left. -/
theorem rollBack_kept (x : Stream) : (rollBack x).state = x.state ∧ (rollBack x).tag = x.tag ∧
    (x.ctx.isSome = true → (rollBack x).ctx.isSome = true) ∧ (rollBack x).slot0 = none ∧ (rollBack x).slot1 = none ∧
    (rollBack x).taken = [] ∧ (rollBack x).progressAddr = x.progressAddr ∧ (rollBack x).owed = x.owed ∧
    (rollBack x).queue = x.queue ++ rollbackWrites x := by
  unfold rollBack
  dsimp only
  cases oldestBack x <;> cases restartCheckpoint x <;> simp

theorem Sound.rollBack {k : StreamId} {s : State} (hx : atWork (s.stream k).state = true) :
    Sound k s (onStream k rollBack s) := by
  obtain ⟨hst, htag, hctx, h0, h1, ht, hp, ho, hq⟩ := rollBack_kept (s.stream k)
  obtain ⟨hu, hr⟩ := (atWork_iff _).1 hx
  refine (Sound.refl k s).move _ ?_ (fun hne _ => absurd hst hne) (fun _ hh => ⟨?_, ?_, ?_⟩) fun _ p _ hp => ?_
  · rw [htag, hst, hr]; simp
  · have hc : (s.stream k).ctx.isSome = true := by rw [hh.1, hu]; rfl
    rw [hctx hc, hst, hu]; rfl
  · exact fun _ => ⟨h0, h1⟩
  · exact fun _ => ht
  · rw [hst]; exact hp

theorem workDone_rollback {s t : State} {k : StreamId} (h : execRollback k s = .next t) : WorkDone True s t := by
  unfold execRollback at h
  split at h
  · next hdue =>
      simp only [rollbackDue, rollingBack, Bool.and_eq_true, Bool.or_eq_true, beq_iff_eq, Bool.not_eq_true'] at hdue
      obtain ⟨⟨⟨⟨hst, _⟩, hfetch⟩, _⟩, _⟩ := hdue
      have hx : atWork (s.stream k).state = true := by rcases hst with e | e <;> rw [e] <;> rfl
      have hr := ((atWork_iff _).1 hx).2
      have h1 := Sound.rollBack hx
      obtain ⟨hst', _, _, _, _, ht, _⟩ := rollBack_kept (s.stream k)
      have hx1 : atWork ((onStream k rollBack s).stream k).state = true := by rw [onStream_self, hst']; exact hx
      have ht1 : ((onStream k rollBack s).stream k).taken = [] := by rw [onStream_self, ht]
      have hf1 : taking (onStream k rollBack s) k = false := by
        unfold fetching at hfetch
        unfold taking
        rw [onStream_fetch]
        revert hfetch
        cases s.fetch <;> simp +contextual
      dsimp only at h
      split at h <;> rw [eq_of_next h]
      · exact ((h1.rest .stopped rfl hx1 hr ht1 hf1).signal _).workDone _
      · exact ((h1.rest .halted rfl hx1 hr ht1 hf1).signal _).workDone _
  · rw [eq_of_next h]; exact workDone_refl _ s

theorem workDone_writeDone {s t : State} {index : Nat} {ok : Bool} (h : execWriteDone index ok s = .next t) :
    WorkDone True s t := by
  unfold execWriteDone at h
  split at h
  · rw [eq_of_next h]; exact workDone_refl _ s
  · next i _ =>
      rw [eq_of_next h]
      refine ⟨i.stream, { s with issued := s.issued.eraseIdx index }, _,
        ⟨rfl, rfl, ⟨rfl, rfl, rfl, rfl⟩, ⟨rfl, rfl, rfl⟩, ⟨rfl, rfl⟩, ⟨rfl, rfl, rfl⟩, List.eraseIdx_sublist ..⟩, fun _ => rfl, ?_,
        Or.inr rfl⟩
      split
      · exact Sound.onDone _ _
      · exact Sound.onFailed _ _

/-! ## What a command leaves -/

namespace WorkDone

variable {p : Prop} {s t : State}

theorem sameControl (h : WorkDone p s t) : SameControl s t := by
  obtain ⟨k, u, v, hu, -, hv, e⟩ := h
  have g := hv.works.sameControl
  have c := hu.control
  rcases e with e | e <;> subst e
  · exact ⟨g.enable.trans c.enable, g.polliv.trans c.polliv, g.tbaseLo.trans c.tbaseLo, g.tbaseHi.trans c.tbaseHi⟩
  · exact ⟨(drain_enable v).trans (g.enable.trans c.enable), (drain_polliv v).trans (g.polliv.trans c.polliv),
      (drain_tbaseLo v).trans (g.tbaseLo.trans c.tbaseLo), (drain_tbaseHi v).trans (g.tbaseHi.trans c.tbaseHi)⟩

theorem sameEventSetup (h : WorkDone p s t) : SameEventSetup s t := by
  obtain ⟨k, u, v, hu, -, hv, e⟩ := h
  have g := hv.works.sameEventSetup
  have c := hu.setup
  rcases e with e | e <;> subst e
  · exact ⟨g.evmap.trans c.evmap, g.msgEnabled.trans c.msgEnabled, g.msgVectors.trans c.msgVectors⟩
  · exact ⟨(drain_evmap v).trans (g.evmap.trans c.evmap), (drain_msgEnabled v).trans (g.msgEnabled.trans c.msgEnabled),
      (drain_msgVectors v).trans (g.msgVectors.trans c.msgVectors)⟩

theorem cmd (h : WorkDone p s t) (hp : p) : t.cmd = s.cmd := by
  obtain ⟨k, u, v, -, hc, hv, e⟩ := h
  have g := hv.works.cmd.trans (hc hp)
  rcases e with e | e <;> subst e
  · exact g
  · rw [drain_cmd]; exact g

theorem faults (h : WorkDone p s t) (i : Nat) (hi : s.faults.getLsbD i = true) : t.faults.getLsbD i = true := by
  obtain ⟨k, u, v, hu, -, hv, e⟩ := h
  have g := hv.works.faults i (by rw [hu.status.faults]; exact hi)
  rcases e with e | e <;> subst e
  · exact g
  · rw [drain_faults]; exact g

theorem latched (h : WorkDone p s t) (c : Cause) (hc : Machine.latched s.evlatch c = true) :
    Machine.latched t.evlatch c = true := by
  obtain ⟨k, u, v, hu, -, hv, e⟩ := h
  have g := hv.works.latched c (by rw [hu.events.evlatch]; exact hc)
  rcases e with e | e <;> subst e
  · exact g
  · rw [drain_evlatch]; exact g

theorem intxFollows (h : WorkDone p s t) (hs : IntxFollows s) : IntxFollows t := by
  obtain ⟨k, u, v, hu, -, hv, e⟩ := h
  have hus : IntxFollows u := by
    unfold IntxFollows at hs ⊢
    rw [hu.events.intx, hu.events.evlatch, hu.setup.msgEnabled, hu.setup.evmap]; exact hs
  have g := hv.works.intxFollows hus
  rcases e with e | e <;> subst e
  · exact g
  · unfold IntxFollows at g ⊢
    rw [drain_intx, drain_msgEnabled, drain_evlatch, drain_evmap]; exact g

/-- What a drain that may follow keeps. -/
theorem apart_of_drain {v : State} (e : t = v ∨ t = drain v) (k : StreamId) : (t.stream k).apart = (v.stream k).apart := by
  rcases e with e | e <;> subst e
  · rfl
  · exact drain_apart k v

theorem othersKept (h : WorkDone p s t) : ∃ k, OthersKept k s t := by
  obtain ⟨k, u, v, hu, -, hv, e⟩ := h
  have g : OthersKept k s v := (OthersKept.of_eq fun j _ => hu.stream j).trans hv.works.othersKept
  rcases e with e | e <;> subst e
  · exact ⟨k, g⟩
  · exact ⟨k, othersKept_drain g⟩

theorem tag (h : WorkDone p s t) (j : StreamId) : (t.stream j).tag =
    if atRest (t.stream j).state = true ∧ atRest (s.stream j).state = false then (s.stream j).tag + 1
    else (s.stream j).tag := by
  obtain ⟨k, u, v, hu, -, hv, e⟩ := h
  have ha := apart_of_drain e j
  rw [Stream.tag_of_apart ha, Stream.state_of_apart ha, ← hu.stream j]
  by_cases hj : j = k
  · subst hj; exact hv.tag
  · have hk := (hv.works.othersKept j hj).1
    rw [Stream.tag_of_apart hk, Stream.state_of_apart hk, if_neg]
    rintro ⟨h1, h2⟩
    rw [h1] at h2; cases h2

theorem shown (h : WorkDone p s t) (j : StreamId) (a : Nat) (hne : (t.stream j).state ≠ (s.stream j).state)
    (hu : unopened (t.stream j).state = false) (ha : (t.stream j).progressAddr = some a) :
    (t.stream j).state ∈ (t.stream j).owed ∨ ∃ w, UnderWay t j w ∧ ShowsState (t.stream j) a w := by
  obtain ⟨k, u, v, hst, -, hv, e⟩ := h
  have hap := apart_of_drain e j
  rw [← hst.stream j] at hne
  rw [Stream.state_of_apart hap] at hne hu
  rw [Stream.progressAddr_of_apart hap] at ha
  unfold ShowsState
  rw [Stream.state_of_apart hap, Stream.owed_of_apart hap, Stream.tag_of_apart hap]
  have hj : j = k := by
    by_contra hj
    exact hne (Stream.state_of_apart (hv.works.othersKept j hj).1)
  subst hj
  rcases hv.shown hne hu a ha with ho | ⟨w, hw, hs⟩
  · exact Or.inl ho
  · refine Or.inr ⟨w, ?_, hs⟩
    rcases e with e | e <;> subst e
    · exact Or.inl hw
    · exact underWay_drain j v w (by rw [hs.2.1]; rfl) (by rw [hs.2.1]; simp) (Or.inl hw)

theorem StreamHolds.of_apart {x y : Stream} (e : y.apart = x.apart) (h : StreamHolds x) : StreamHolds y :=
  h.of_same (Stream.state_of_apart e) (by rw [Stream.ctx_of_apart e]) (fun e0 _ => by rw [Stream.slot0_of_apart e, e0])
    (fun e1 _ => by rw [Stream.slot1_of_apart e, e1]) fun et => by rw [Stream.taken_of_apart e, et]

theorem holds (h : WorkDone p s t) (hs : StreamsHold s) : StreamsHold t := by
  obtain ⟨k, u, v, hst, -, hv, e⟩ := h
  have hu : StreamsHold u := ⟨fun j => by rw [hst.stream j]; exact hs.1 j, fun txn ht => by
    rw [hst.stream]; exact hs.2 txn (by rw [← hst.fetch]; exact ht)⟩
  obtain ⟨hall, hf⟩ := hv.holds hu
  refine ⟨fun j => StreamHolds.of_apart (apart_of_drain e j) (hall j), fun txn ht => ?_⟩
  rw [Stream.state_of_apart (apart_of_drain e txn.stream)]
  refine hf txn ?_
  rcases e with e | e <;> subst e
  · exact ht
  · rw [drain_fetch] at ht; exact ht

/-- Issuing a write keeps a stream's writes under way to data writes or one ordered write alone (R175). -/
theorem orderedAlone_issueOne (k : StreamId) (s : State) (hk : issuable s k = true) (h : OrderedAlone s) :
    OrderedAlone (issueOne k s) := by
  rcases issueOne_cases k s with ⟨_, e⟩ | ⟨w, rest, hq, e⟩
  · rw [e]; exact h
  intro j
  have happ : issuedOf (issueOne k s) j = issuedOf s j ++
      if k = j then [{ stream := k, write := resolveFinish (s.stream k) (gather w rest).1 }] else [] := by
    rw [e]
    unfold issuedOf
    rw [List.filter_append]
    by_cases hj : k = j <;> simp [hj]
  rw [happ]
  by_cases hj : k = j
  · subst hj
    rw [if_pos rfl]
    unfold issuable at hk
    rw [hq] at hk
    dsimp only at hk
    by_cases hd : isData w.tag = true
    · rw [if_pos hd, List.all_eq_true] at hk
      refine Or.inl fun i hi => ?_
      rcases List.mem_append.1 hi with hi | hi
      · exact hk i hi
      · rw [List.mem_singleton.1 hi, isData_resolveFinish, gather_tag]; exact hd
    · rw [if_neg hd, Bool.and_eq_true, List.isEmpty_iff] at hk
      exact Or.inr (by rw [hk.1]; simp)
  · rw [if_neg hj, List.append_nil]; exact h j

theorem orderedAlone_drain {s : State} (h : OrderedAlone s) : OrderedAlone (drain s) :=
  drain_induct (P := OrderedAlone) orderedAlone_issueOne s h

/-- Writes reported leave what is under way ordered. -/
theorem orderedAlone_of_sublist {s t : State} (h : OrderedAlone s) (hl : t.issued.Sublist s.issued) : OrderedAlone t := by
  intro k
  have hk : (issuedOf t k).Sublist (issuedOf s k) := hl.filter _
  rcases h k with hd | h1
  · exact Or.inl fun i hi => hd i (hk.subset hi)
  · exact Or.inr (hk.length_le.trans h1)

theorem orderedAlone (h : WorkDone p s t) (hs : OrderedAlone s) : OrderedAlone t := by
  obtain ⟨k, u, v, hu, -, hv, e⟩ := h
  have g : OrderedAlone v := orderedAlone_of_sublist hs (by rw [hv.works.issued]; exact hu.issued)
  rcases e with e | e <;> subst e
  · exact g
  · exact orderedAlone_drain g

end WorkDone

end Sys2Proof.Machine
end

section
/-! PROOFS. The queue and reset, and what every command keeps: the registers, the tags, the records and what the streams hold. -/

namespace Sys2Proof.Machine

/-! ## The queue and reset (R183) -/

/-- Settles O1: the two branches of `step`. -/
theorem stepRunsFrontCommand : Obligations.StepRunsFrontCommand := by
  unfold Obligations.StepRunsFrontCommand
  refine ⟨fun c rest s h => ?_, fun s h => ?_⟩
  · rw [step, h]
  · rw [step, h]

theorem reset_stream (k : StreamId) : State.reset.stream k = Stream.closed := by
  simp [State.stream, State.reset]

/-- Settles O2: the reset state read register by register, and each stream of it is `Stream.closed`. -/
theorem resetState : Obligations.ResetState := by
  unfold Obligations.ResetState
  refine ⟨⟨rfl, rfl, rfl, rfl, rfl, rfl, rfl, rfl, rfl, fun s i => ?_, rfl⟩, fun k => ?_, rfl, rfl, rfl, rfl, rfl, rfl⟩
  · fin_cases i <;> rfl
  · rw [reset_stream]
    exact ⟨rfl, rfl, rfl, rfl, rfl, rfl, rfl, rfl, rfl, rfl, rfl, rfl, rfl, rfl, rfl⟩

theorem exec_deviceReset (cause : ResetCause) (s : State) : exec (.deviceReset cause) s = .next (resetDevice s) := by
  cases cause <;> rfl

/-- Settles O3: `resetDevice` field by field. -/
theorem deviceResetTakesResetValues : Obligations.DeviceResetTakesResetValues := by
  unfold Obligations.DeviceResetTakesResetValues
  intro cause s
  exact ⟨resetDevice s, exec_deviceReset cause s, rfl, rfl, rfl, rfl, rfl, ⟨rfl, rfl, rfl, rfl⟩, ⟨rfl, rfl⟩,
    ⟨rfl, rfl, rfl, rfl, rfl, rfl⟩, rfl, rfl, rfl, rfl⟩

/-- With no latch set INTx is deasserted (R192). -/
theorem intxFollows_of_no_latch {s : State} (hl : s.evlatch = 0#5) (hi : s.intx = false) : IntxFollows s := by
  unfold IntxFollows
  rw [hl, hi]
  simp [latched]

theorem registersHeld_reset : RegistersHeld State.reset := by
  unfold RegistersHeld
  decide

theorem streamHolds_closed : StreamHolds Stream.closed :=
  ⟨rfl, fun _ => ⟨rfl, rfl⟩, fun _ => rfl⟩

/-- With every stream closed and no fetch in progress the streams' invariant holds. -/
theorem streamsHold_of_closed {s : State} (hs : s.streams = State.reset.streams) (hf : s.fetch = none) : StreamsHold s := by
  refine ⟨fun k => ?_, fun txn e => ?_⟩
  · rw [State.stream, hs, ← State.stream, reset_stream]; exact streamHolds_closed
  · rw [hf] at e; cases e

theorem orderedAlone_of_none {s : State} (h : s.issued = []) : OrderedAlone s :=
  fun k => Or.inl fun i hi => by rw [issuedOf, h] at hi; cases hi

/-- Settles O9: nothing is latched, open or under way at reset. -/
theorem invariantsHoldAtReset : Obligations.InvariantsHoldAtReset := by
  unfold Obligations.InvariantsHoldAtReset
  exact ⟨intxFollows_of_no_latch rfl rfl, registersHeld_reset, streamsHold_of_closed rfl rfl, orderedAlone_of_none rfl⟩

/-! ## The commands that write registers -/

/-- A command that changes registers alone: no stream, no fetch and no write under way, and INTx, POLLIV and TBASE stay as the
invariants have them. -/
structure RegisterStep (s t : State) : Prop where
  streams : t.streams = s.streams
  fetch : t.fetch = s.fetch
  issued : t.issued = s.issued
  intx : IntxFollows s → IntxFollows t
  held : RegistersHeld s → RegistersHeld t

theorem registerStep_refl (s : State) : RegisterStep s s := ⟨rfl, rfl, rfl, id, id⟩

/-- What a CMD write can do: set CMD_OVERRUN, or change CMD (R184, R186). -/
theorem writeCmd_cases (code : BitVec 3) (f : BitVec 4) (skip : Bool) (tag : BitVec 16) (s : State) :
    writeCmd code f skip tag s = setFault faultOverrun f s ∨ ∃ c, writeCmd code f skip tag s = { s with cmd := c } := by
  unfold writeCmd
  split
  · exact Or.inl rfl
  · exact Or.inr ⟨_, rfl⟩

theorem registersHeld_setFault (b f : BitVec 4) (s : State) (h : RegistersHeld s) : RegistersHeld (setFault b f s) := by
  unfold RegistersHeld tableBase at h ⊢
  rw [setFault_polliv, setFault_tbaseHi, setFault_tbaseLo]; exact h

theorem registerStep_writeCmd (code : BitVec 3) (f : BitVec 4) (skip : Bool) (tag : BitVec 16) (s : State) :
    RegisterStep s (writeCmd code f skip tag s) := by
  rcases writeCmd_cases code f skip tag s with e | ⟨c, e⟩
  · rw [e]
    exact ⟨setFault_streams .., setFault_fetch .., setFault_issued .., fun h => intxFollows_signal _ _ h,
      registersHeld_setFault _ _ s⟩
  · rw [e]; exact ⟨rfl, rfl, rfl, id, id⟩

/-- A write of EVMAP changes EVMAP, INTx and the messages. -/
theorem writeEvmap_form (value : Word32) (s : State) : ∃ ms, writeEvmap value s =
    refreshIntx { s with evmap := value.setWidth 15, messages := s.messages ++ ms } := by
  obtain ⟨ms, _, e⟩ := foldl_messageIfMapped (allCauses.filter (newlyMapped s.evlatch s.evmap (value.setWidth 15)))
    { s with evmap := value.setWidth 15 } fun c hc => by
      simp only [List.mem_filter, newlyMapped, Bool.and_eq_true, decide_eq_true_eq] at hc
      exact hc.2.1.2
  refine ⟨ms, ?_⟩
  rw [writeEvmap]
  exact congrArg refreshIntx e

theorem registerStep_writeEvmap (value : Word32) (s : State) : RegisterStep s (writeEvmap value s) := by
  obtain ⟨ms, e⟩ := writeEvmap_form value s
  rw [e]
  exact ⟨rfl, rfl, rfl, fun _ => intxFollows_refreshIntx _, id⟩

theorem registerStep_clearLatches (value : Word32) (s : State) : RegisterStep s (clearLatches value s) :=
  ⟨rfl, rfl, rfl, fun _ => intxFollows_refreshIntx _, id⟩

theorem registerStep_clearFaults (value : Word32) (s : State) : RegisterStep s (clearFaults value s) :=
  ⟨rfl, rfl, rfl, id, id⟩

theorem registerStep_setSignalling (enabled : Bool) (vectors : VectorCount) (s : State) :
    RegisterStep s (setSignalling enabled vectors s) :=
  ⟨rfl, rfl, rfl, fun _ => intxFollows_refreshIntx _, id⟩

theorem exec_registerWrite_partial {offset : BitVec 6} {size : Nat} {value : Word32} {s : State}
    (h : ¬(size = 4 ∧ offset.toNat % 4 = 0)) : exec (.registerWrite offset size value) s = .next s :=
  if_neg h

theorem heldPolliv_ne_zero (value : Word32) : heldPolliv value ≠ 0#16 := by
  unfold heldPolliv
  split
  · decide
  · assumption

/-- What TBASE_LO holds is 64-byte aligned: its bits 5 to 0 are 0. -/
theorem heldTableLow_aligned (value : Word32) : (heldTableLow value).toNat % 64 = 0 := by
  refine Nat.eq_of_testBit_eq fun i => ?_
  rw [show 64 = 2 ^ 6 from rfl, Nat.testBit_mod_two_pow, Nat.zero_testBit, Bool.and_eq_false_iff]
  by_cases hi : i < 6
  · refine Or.inr ?_
    exact (getLsbD_heldTableLow value ⟨i, by omega⟩).trans (by simp [Nat.not_le.2 hi])
  · exact Or.inl (by simpa using hi)

/-- TBASE_LO alone decides the alignment of the reel table address. -/
theorem tableBase_mod (s : State) : tableBase s % 64 = s.tbaseLo.toNat % 64 := by
  unfold tableBase
  omega

/-- A full write of one register resets the part, by RESET, or is a register step (R182). -/
theorem writeRegister_kinds (offset : BitVec 6) (value : Word32) (s : State) :
    (writeRegister offset value s = resetDevice s ∧ hasOwnRow offset = true) ∨ RegisterStep s (writeRegister offset value s) := by
  unfold writeRegister
  split
  · next h =>
      split
      · refine Or.inl ⟨rfl, ?_⟩
        rw [BitVec.eq_of_toNat_eq (x := offset) (y := 0x04#6) h]; rfl
      · exact Or.inr ⟨rfl, rfl, rfl, id, id⟩
  · exact Or.inr (registerStep_clearFaults value s)
  · exact Or.inr ⟨rfl, rfl, rfl, id, fun h => ⟨heldPolliv_ne_zero value, h.2⟩⟩
  · refine Or.inr ⟨rfl, rfl, rfl, id, fun h => ⟨h.1, ?_⟩⟩
    rw [tableBase_mod]
    exact heldTableLow_aligned value
  · refine Or.inr ⟨rfl, rfl, rfl, id, fun h => ⟨h.1, ?_⟩⟩
    rw [RegistersHeld] at h
    rw [tableBase_mod] at h ⊢
    exact h.2
  · exact Or.inr (registerStep_writeCmd ..)
  · exact Or.inr (registerStep_clearLatches value s)
  · exact Or.inr (registerStep_writeEvmap value s)
  · exact Or.inr (registerStep_refl s)

/-! ## Every command -/

/-- The commands that do work of the part, on one stream. -/
def isWork : Instr → Bool
  | .commandDispatch | .fetchGrant | .laneReadDone _ | .headerReadDone _ | .marksReadDone _ | .takeProfileReadDone _
  | .waitReadDone _ | .entryReadDone _ | .openProfileReadDone _ | .pollTimerExpiry _ | .engineGrant | .blockEnd | .rollback _
  | .writeDone .. => true
  | _ => false

theorem WorkDone.weaken {p q : Prop} {s t : State} (h : WorkDone p s t) (hq : q → p) : WorkDone q s t := by
  obtain ⟨k, u, v, hu, hc, hv, e⟩ := h
  exact ⟨k, u, v, hu, fun hp => hc (hq hp), hv, e⟩

theorem workDone_exec {c : Instr} {s t : State} (hc : isWork c = true) (h : exec c s = .next t) :
    WorkDone (c ≠ .commandDispatch) s t := by
  cases c with
  | commandDispatch => exact (workDone_commandDispatch h).weaken fun hn => hn rfl
  | fetchGrant => exact (workDone_fetchGrant h).weaken fun _ => trivial
  | laneReadDone lanes => exact (workDone_laneReadDone h).weaken fun _ => trivial
  | headerReadDone data => exact (workDone_headerReadDone h).weaken fun _ => trivial
  | marksReadDone data => exact (workDone_marksReadDone h).weaken fun _ => trivial
  | takeProfileReadDone data => exact (workDone_takeProfileReadDone h).weaken fun _ => trivial
  | waitReadDone data => exact (workDone_waitReadDone h).weaken fun _ => trivial
  | entryReadDone data => exact (workDone_entryReadDone h).weaken fun _ => trivial
  | openProfileReadDone data => exact (workDone_openProfileReadDone h).weaken fun _ => trivial
  | pollTimerExpiry k => exact (workDone_pollTimerExpiry h).weaken fun _ => trivial
  | engineGrant => exact (workDone_engineGrant h).weaken fun _ => trivial
  | blockEnd => exact (workDone_blockEnd h).weaken fun _ => trivial
  | rollback k => exact (workDone_rollback h).weaken fun _ => trivial
  | writeDone index ok => exact (workDone_writeDone h).weaken fun _ => trivial
  | cmdOpen | cmdStop | cmdAbort | cmdResume | cmdClose | cmdPoll | cmdUndefined | enable | deviceReset | devstatClear
  | evlatchClear | evmapWrite | registerWrite | messageSignallingChange => cases hc

/-- All that a command can do: reset the part, change registers, or work on one stream. -/
theorem exec_kinds {c : Instr} {s t : State} (h : exec c s = .next t) :
    (t = resetDevice s ∧ (c.wellFormed = true → isReset c = true)) ∨ RegisterStep s t ∨
      WorkDone (c ≠ .commandDispatch) s t := by
  by_cases hw : isWork c = true
  · exact Or.inr (Or.inr (workDone_exec hw h))
  cases c with
  | cmdOpen f skip tag | cmdStop f skip tag | cmdAbort f skip tag | cmdResume f skip tag | cmdClose f skip tag
  | cmdPoll f skip tag | cmdUndefined u f skip tag =>
      rw [eq_of_next h]; exact Or.inr (Or.inl (registerStep_writeCmd ..))
  | enable on => rw [eq_of_next h]; exact Or.inr (Or.inl ⟨rfl, rfl, rfl, id, id⟩)
  | deviceReset cause => rw [exec_deviceReset] at h; exact Or.inl ⟨eq_of_next h, fun _ => rfl⟩
  | devstatClear value => rw [eq_of_next h]; exact Or.inr (Or.inl (registerStep_clearFaults value s))
  | evlatchClear value => rw [eq_of_next h]; exact Or.inr (Or.inl (registerStep_clearLatches value s))
  | evmapWrite value => rw [eq_of_next h]; exact Or.inr (Or.inl (registerStep_writeEvmap value s))
  | messageSignallingChange enabled vectors =>
      rw [eq_of_next h]; exact Or.inr (Or.inl (registerStep_setSignalling enabled vectors s))
  | registerWrite offset size value =>
      by_cases hs : size = 4 ∧ offset.toNat % 4 = 0
      · obtain ⟨rfl, ha⟩ := hs
        rw [exec_registerWrite_full offset value s ha] at h
        rw [eq_of_next h]
        rcases writeRegister_kinds offset value s with ⟨e, ho⟩ | hr
        · refine Or.inl ⟨e, fun hwf => ?_⟩
          rw [Laws.OwnRow.registerWrite offset 4 value hwf offset value rfl] at ho
          cases ho
        · exact Or.inr (Or.inl hr)
      · rw [exec_registerWrite_partial hs] at h
        rw [eq_of_next h]; exact Or.inr (Or.inl (registerStep_refl s))
  | commandDispatch | fetchGrant | laneReadDone | headerReadDone | marksReadDone | takeProfileReadDone | waitReadDone
  | entryReadDone | openProfileReadDone | pollTimerExpiry | engineGrant | blockEnd | rollback | writeDone =>
      exact absurd rfl hw

/-- A step on a waiting command is that command on the queue's rest; with none waiting nothing happens. -/
theorem step_kinds {s t : State} (h : step s = .next t) :
    t = s ∨ ∃ c rest, s.pending = c :: rest ∧ exec c { s with pending := rest } = .next t := by
  cases hp : s.pending with
  | nil => rw [step, hp] at h; exact Or.inl (eq_of_next h)
  | cons c rest => rw [step, hp] at h; exact Or.inr ⟨c, rest, rfl, h⟩

/-! ## What every step keeps -/

/-- Settles O8: by `exec_kinds`; work keeps the control registers and signals causes alone, and a register step keeps both
invariants. -/
theorem registersKeptEveryStep : Obligations.RegistersKeptEveryStep := by
  unfold Obligations.RegistersKeptEveryStep
  intro s t h
  rcases step_kinds h with rfl | ⟨c, rest, -, h⟩
  · exact ⟨id, id⟩
  rcases exec_kinds h with ⟨rfl, -⟩ | hr | hw
  · exact ⟨fun _ => intxFollows_of_no_latch rfl rfl, fun _ => registersHeld_reset⟩
  · exact ⟨hr.intx, hr.held⟩
  · obtain ⟨-, hp, hlo, hhi⟩ := hw.sameControl
    refine ⟨hw.intxFollows, fun hs => ?_⟩
    unfold RegistersHeld tableBase at hs ⊢
    rw [hp, hlo, hhi]; exact hs

/-- Settles O17: by `exec_kinds`; of work it is `WorkDone.tag`, and a register step touches no stream. -/
theorem tagChangesOnlyAtRest : Obligations.TagChangesOnlyAtRest := by
  unfold Obligations.TagChangesOnlyAtRest
  intro c s t k hwf h
  refine ⟨fun hr => ?_, fun hr => ?_⟩
  · obtain ⟨cause, rfl⟩ : ∃ cause, c = .deviceReset cause := by cases c <;> simp_all [isReset]
    rw [exec_deviceReset] at h
    rw [eq_of_next h]
    exact congrArg Stream.tag (reset_stream k)
  · rcases exec_kinds h with ⟨-, hreset⟩ | hs | hw
    · rw [hreset hwf] at hr; cases hr
    · rw [State.stream, hs.streams, ← State.stream, if_neg]
      rintro ⟨h1, h2⟩
      rw [h1] at h2; cases h2
    · exact hw.tag k

/-- Settles O18: by `exec_kinds`; of work it is `WorkDone.shown`. -/
theorem transitionsRecorded : Obligations.TransitionsRecorded := by
  unfold Obligations.TransitionsRecorded
  intro c s t k p hwf hr h hne hu hp
  rcases exec_kinds h with ⟨-, hreset⟩ | hs | hw
  · rw [hreset hwf] at hr; cases hr
  · exact absurd (by rw [State.stream, hs.streams, ← State.stream]) hne
  · exact hw.shown k p hne hu hp

/-- Settles O19: by `exec_kinds`; of work it is `WorkDone.holds`. -/
theorem streamsHoldEveryStep : Obligations.StreamsHoldEveryStep := by
  unfold Obligations.StreamsHoldEveryStep
  intro s t _ hs h
  rcases step_kinds h with rfl | ⟨c, rest, -, h⟩
  · exact hs
  have hs1 : StreamsHold { s with pending := rest } := hs
  rcases exec_kinds h with ⟨rfl, -⟩ | hr | hw
  · exact streamsHold_of_closed rfl rfl
  · refine ⟨fun k => ?_, fun txn e => ?_⟩
    · rw [State.stream, hr.streams]; exact hs1.1 k
    · rw [State.stream, hr.streams]; exact hs1.2 txn (hr.fetch ▸ e)
  · exact hw.holds hs1

/-- Settles O20: by `exec_kinds`; of work it is `WorkDone.othersKept`. -/
theorem oneStreamPerCommand : Obligations.OneStreamPerCommand := by
  unfold Obligations.OneStreamPerCommand
  intro c s t hwf hr h
  rcases exec_kinds h with ⟨-, hreset⟩ | hs | hw
  · rw [hreset hwf] at hr; cases hr
  · exact ⟨0, OthersKept.of_eq fun j _ => by rw [State.stream, hs.streams, ← State.stream]⟩
  · exact hw.othersKept

/-- Settles O21: by `exec_kinds`; of work it is `WorkDone.orderedAlone`, where the drain issues an ordered write alone. -/
theorem orderedWritesAloneEveryStep : Obligations.OrderedWritesAloneEveryStep := by
  unfold Obligations.OrderedWritesAloneEveryStep
  intro s t hs h
  rcases step_kinds h with rfl | ⟨c, rest, -, h⟩
  · exact hs
  have hs1 : OrderedAlone { s with pending := rest } := hs
  rcases exec_kinds h with ⟨rfl, -⟩ | hr | hw
  · exact orderedAlone_of_none rfl
  · intro k; rw [issuedOf, hr.issued]; exact hs1 k
  · exact hw.orderedAlone hs1

/-! ## Who changes which register -/

/-- A register write that is well-formed, and so names no register with a command of its own, changes POLLIV or TBASE alone. -/
theorem registerWrite_owned {offset : BitVec 6} {size : Nat} {value : Word32} {s t : State}
    (hwf : (Instr.registerWrite offset size value).wellFormed = true) (h : exec (.registerWrite offset size value) s = .next t) :
    ∃ p lo hi, t = { s with polliv := p, tbaseLo := lo, tbaseHi := hi } := by
  by_cases hs : size = 4 ∧ offset.toNat % 4 = 0
  · obtain ⟨rfl, ha⟩ := hs
    rw [exec_registerWrite_full offset value s ha] at h
    rw [eq_of_next h]
    have ho := Laws.OwnRow.registerWrite offset 4 value hwf offset value rfl
    have hne : ∀ n : BitVec 6, hasOwnRow n = true → offset.toNat ≠ n.toNat := fun n hn e => by
      rw [BitVec.eq_of_toNat_eq e, hn] at ho; cases ho
    unfold writeRegister
    split
    · next e => exact absurd e (hne 0x04#6 rfl)
    · next e => exact absurd e (hne 0x08#6 rfl)
    · exact ⟨_, _, _, rfl⟩
    · exact ⟨_, _, _, rfl⟩
    · exact ⟨_, _, _, rfl⟩
    · next e => exact absurd e (hne 0x18#6 rfl)
    · next e => exact absurd e (hne 0x1C#6 rfl)
    · next e => exact absurd e (hne 0x20#6 rfl)
    · exact ⟨_, _, _, rfl⟩
  · rw [exec_registerWrite_partial hs] at h
    rw [eq_of_next h]; exact ⟨_, _, _, rfl⟩

/-- A CMD write changes CMD, or sets CMD_OVERRUN with its event (R184, R186). -/
theorem owners_writeCmd (code : BitVec 3) (f : BitVec 4) (skip : Bool) (tag : BitVec 16) (s : State) {c : Instr}
    (hc : (cmdWritten c).isSome = true) :
    ((writeCmd code f skip tag s).msgEnabled = s.msgEnabled ∧ (writeCmd code f skip tag s).msgVectors = s.msgVectors ∨
        ∃ e v, c = .messageSignallingChange e v) ∧
    (isReset c = true ∨
      ((writeCmd code f skip tag s).enable = s.enable ∨ ∃ b, c = .enable b) ∧
      ((writeCmd code f skip tag s).polliv = s.polliv ∧ (writeCmd code f skip tag s).tbaseLo = s.tbaseLo ∧
          (writeCmd code f skip tag s).tbaseHi = s.tbaseHi ∨ ∃ o n v, c = .registerWrite o n v) ∧
      ((writeCmd code f skip tag s).evmap = s.evmap ∨ ∃ v, c = .evmapWrite v) ∧
      ((writeCmd code f skip tag s).cmd = s.cmd ∨ c = .commandDispatch ∨ (cmdWritten c).isSome = true) ∧
      ((∀ i : Fin 4, s.faults.getLsbD i.val = true → (writeCmd code f skip tag s).faults.getLsbD i.val = true) ∨
        ∃ v, c = .devstatClear v) ∧
      ((∀ d : Cause, latched s.evlatch d = true → latched (writeCmd code f skip tag s).evlatch d = true) ∨
        ∃ v, c = .evlatchClear v)) := by
  rcases writeCmd_cases code f skip tag s with e | ⟨r, e⟩ <;> rw [e]
  · refine ⟨Or.inl ⟨setFault_msgEnabled .., setFault_msgVectors ..⟩, Or.inr ⟨Or.inl (setFault_enable ..),
      Or.inl ⟨setFault_polliv .., setFault_tbaseLo .., setFault_tbaseHi ..⟩, Or.inl (setFault_evmap ..), Or.inr (Or.inr hc),
      Or.inl fun i hi => ?_, Or.inl fun d hd => ?_⟩⟩
    · rw [setFault_getLsbD, hi]; rfl
    · rw [setFault, latched_signal]; exact Bool.or_eq_true_iff.2 (Or.inl hd)
  · exact ⟨Or.inl ⟨rfl, rfl⟩, Or.inr ⟨Or.inl rfl, Or.inl ⟨rfl, rfl, rfl⟩, Or.inl rfl, Or.inr (Or.inr hc), Or.inl fun _ => id,
      Or.inl fun _ => id⟩⟩

/-- Settles O10: work keeps the registers but for CMD at a dispatch, faults and latches, by `WorkDone`; every register command
is read off its definition. -/
theorem registerOwners : Obligations.RegisterOwners := by
  unfold Obligations.RegisterOwners
  intro c s t hwf h
  by_cases hw : isWork c = true
  · have w := workDone_exec hw h
    obtain ⟨he, hp, hlo, hhi⟩ := w.sameControl
    obtain ⟨hm, hen, hv⟩ := w.sameEventSetup
    refine ⟨Or.inl ⟨hen, hv⟩, Or.inr ⟨Or.inl he, Or.inl ⟨hp, hlo, hhi⟩, Or.inl hm, ?_, Or.inl fun i => w.faults i, Or.inl w.latched⟩⟩
    by_cases hc : c = .commandDispatch
    · exact Or.inr (Or.inl hc)
    · exact Or.inl (w.cmd hc)
  cases c with
  | cmdOpen f skip tag | cmdStop f skip tag | cmdAbort f skip tag | cmdResume f skip tag | cmdClose f skip tag
  | cmdPoll f skip tag =>
      rw [eq_of_next h]; exact owners_writeCmd _ _ _ _ s rfl
  | cmdUndefined u f skip tag => rw [eq_of_next h]; cases u <;> exact owners_writeCmd _ _ _ _ s rfl
  | enable on =>
      rw [eq_of_next h]
      exact ⟨Or.inl ⟨rfl, rfl⟩, Or.inr ⟨Or.inr ⟨on, rfl⟩, Or.inl ⟨rfl, rfl, rfl⟩, Or.inl rfl, Or.inl rfl, Or.inl fun _ => id,
        Or.inl fun _ => id⟩⟩
  | deviceReset cause =>
      rw [exec_deviceReset] at h
      rw [eq_of_next h]
      exact ⟨Or.inl ⟨rfl, rfl⟩, Or.inl rfl⟩
  | devstatClear value =>
      rw [eq_of_next h]
      exact ⟨Or.inl ⟨rfl, rfl⟩, Or.inr ⟨Or.inl rfl, Or.inl ⟨rfl, rfl, rfl⟩, Or.inl rfl, Or.inl rfl, Or.inr ⟨value, rfl⟩,
        Or.inl fun _ => id⟩⟩
  | evlatchClear value =>
      rw [eq_of_next h]
      exact ⟨Or.inl ⟨rfl, rfl⟩, Or.inr ⟨Or.inl rfl, Or.inl ⟨rfl, rfl, rfl⟩, Or.inl rfl, Or.inl rfl, Or.inl fun _ => id,
        Or.inr ⟨value, rfl⟩⟩⟩
  | evmapWrite value =>
      obtain ⟨ms, e⟩ := writeEvmap_form value s
      rw [(eq_of_next h).trans e]
      exact ⟨Or.inl ⟨rfl, rfl⟩, Or.inr ⟨Or.inl rfl, Or.inl ⟨rfl, rfl, rfl⟩, Or.inr ⟨value, rfl⟩, Or.inl rfl, Or.inl fun _ => id,
        Or.inl fun _ => id⟩⟩
  | messageSignallingChange enabled vectors =>
      rw [eq_of_next h]
      exact ⟨Or.inr ⟨enabled, vectors, rfl⟩, Or.inr ⟨Or.inl rfl, Or.inl ⟨rfl, rfl, rfl⟩, Or.inl rfl, Or.inl rfl,
        Or.inl fun _ => id, Or.inl fun _ => id⟩⟩
  | registerWrite offset size value =>
      obtain ⟨p, lo, hi, rfl⟩ := registerWrite_owned hwf h
      exact ⟨Or.inl ⟨rfl, rfl⟩, Or.inr ⟨Or.inl rfl, Or.inr ⟨offset, size, value, rfl⟩, Or.inl rfl, Or.inl rfl,
        Or.inl fun _ => id, Or.inl fun _ => id⟩⟩
  | commandDispatch | fetchGrant | laneReadDone | headerReadDone | marksReadDone | takeProfileReadDone | waitReadDone
  | entryReadDone | openProfileReadDone | pollTimerExpiry | engineGrant | blockEnd | rollback | writeDone =>
      exact absurd rfl hw

end Sys2Proof.Machine
end

section
/-! PROOFS. Frames through a drain, and the stop work of a STOPPING stream (R123). -/

namespace Sys2Proof.Machine

/-! ## Frames in a row and through a drain -/

theorem SameControl.trans {s t u : State} (h : SameControl s t) (g : SameControl t u) : SameControl s u :=
  ⟨g.enable.trans h.enable, g.polliv.trans h.polliv, g.tbaseLo.trans h.tbaseLo, g.tbaseHi.trans h.tbaseHi⟩

theorem SameEventSetup.trans {s t u : State} (h : SameEventSetup s t) (g : SameEventSetup t u) : SameEventSetup s u :=
  ⟨g.evmap.trans h.evmap, g.msgEnabled.trans h.msgEnabled, g.msgVectors.trans h.msgVectors⟩

theorem SameStatus.trans {s t u : State} (h : SameStatus s t) (g : SameStatus t u) : SameStatus s u :=
  ⟨g.faults.trans h.faults, g.lastFault.trans h.lastFault⟩

theorem SameEvents.trans {s t u : State} (h : SameEvents s t) (g : SameEvents t u) : SameEvents s u :=
  ⟨g.evlatch.trans h.evlatch, g.intx.trans h.intx, g.messages.trans h.messages⟩

theorem SameAround.trans {s t u : State} (h : SameAround s t) (g : SameAround t u) : SameAround s u :=
  ⟨h.control.trans g.control, h.setup.trans g.setup, g.engineLast.trans h.engineLast, g.engine.trans h.engine,
    g.pending.trans h.pending⟩

theorem sameControl_drain (s : State) : SameControl s (drain s) :=
  ⟨drain_enable s, drain_polliv s, drain_tbaseLo s, drain_tbaseHi s⟩

theorem sameEventSetup_drain (s : State) : SameEventSetup s (drain s) :=
  ⟨drain_evmap s, drain_msgEnabled s, drain_msgVectors s⟩

theorem sameStatus_drain (s : State) : SameStatus s (drain s) := ⟨drain_faults s, drain_lastFault s⟩

theorem sameEvents_drain (s : State) : SameEvents s (drain s) := ⟨drain_evlatch s, drain_intx s, drain_messages s⟩

theorem sameAround_drain (s : State) : SameAround s (drain s) :=
  ⟨sameControl_drain s, sameEventSetup_drain s, drain_engineLast s, drain_engine s, drain_pending s⟩

theorem sameAround_refl (s : State) : SameAround s s := ⟨⟨rfl, rfl, rfl, rfl⟩, ⟨rfl, rfl, rfl⟩, rfl, rfl, rfl⟩

theorem sameAround_judged (s : State) (r : CmdResult) : SameAround s (s.judged r) :=
  ⟨⟨rfl, rfl, rfl, rfl⟩, ⟨rfl, rfl, rfl⟩, rfl, rfl, rfl⟩

theorem othersKept_of_streams {k : StreamId} {s t : State} (h : t.streams = s.streams) : OthersKept k s t :=
  OthersKept.of_eq fun j _ => by rw [State.stream, State.stream, h]

namespace Works

variable {n : Loudness} {k : StreamId} {s u v : State}

theorem around (w : Works n k u v) (h : SameAround s u) : SameAround s (drain v) :=
  (h.trans w.sameAround).trans (sameAround_drain v)

theorem others (w : Works n k u v) (h : u.streams = s.streams) : OthersKept k s (drain v) :=
  othersKept_drain ((othersKept_of_streams h).trans w.othersKept)

theorem status (w : Works n k u v) (hn : n ≠ .faults) (h : SameStatus s u) : SameStatus s (drain v) :=
  (h.trans (w.sameStatus hn)).trans (sameStatus_drain v)

theorem events (w : Works .silent k u v) (h : SameEvents s u) : SameEvents s (drain v) :=
  (h.trans w.sameEvents).trans (sameEvents_drain v)

end Works

/-- A stream after a change of its record and a drain, but for its queue. -/
theorem drain_onStream_apart (k : StreamId) (f : Stream → Stream) (s : State) :
    ((drain (onStream k f s)).stream k).apart = (f (s.stream k)).apart := by
  rw [drain_apart, onStream_self]

/-- A queued ordered write that is no state word of a finish is under way after a drain. -/
theorem underWay_drain_of_mem {k : StreamId} {s : State} {w : Write} (h : w ∈ (s.stream k).queue)
    (hd : isData w.tag = false) (hf : ∀ tid released, w.tag ≠ .finish tid released) : UnderWay (drain s) k w :=
  underWay_drain k s w hd hf (Or.inl h)

theorem underWay_record {k : StreamId} {s : State} {y : Stream} {p : Nat} (h : recordWrite k y p ∈ (s.stream k).queue) :
    UnderWay (drain s) k (recordWrite k y p) :=
  underWay_drain_of_mem h rfl (by simp [recordWrite])

/-- A progress record shows nothing of the write queue. -/
theorem recordWrite_of_apart {k : StreamId} {x y : Stream} {p : Nat} (h : y.apart = x.apart) :
    recordWrite k y p = recordWrite k x p := by
  show recordWrite k y.apart p = recordWrite k x.apart p
  rw [h]

theorem recordWrite_handRecord (k : StreamId) (x : Stream) (p : Nat) :
    recordWrite k (handRecord k x) p = recordWrite k x p := by
  rw [handRecord_eq]; rfl

/-- With no record owed a record handed over is queued. -/
theorem recordWrite_mem_handRecord {k : StreamId} {x : Stream} {p : Nat} (ho : x.owed = []) (hp : x.progressAddr = some p) :
    recordWrite k x p ∈ (handRecord k x).queue := by
  unfold handRecord
  rw [hp]
  dsimp only
  rw [if_pos ho]
  exact List.mem_append_right _ (List.mem_singleton.2 rfl)

/-- A cause signal acts on the latches, INTx and the messages as the setup of events and these stand. -/
theorem sameEvents_signal {s u : State} (c : Cause) (h : SameEvents s u) (g : SameEventSetup s u) :
    SameEvents (signal c s) (signal c u) := by
  obtain ⟨h1, h2, h3⟩ := h
  obtain ⟨g1, g2, g3⟩ := g
  unfold signal
  rw [h1]
  split
  · exact ⟨h1, h2, h3⟩
  · unfold messageIfMapped sendMessage refreshIntx
    dsimp only
    rw [g1, g2, g3, h3]
    split <;> exact ⟨by simp, by simp, by simp⟩

/-! ## Giving back (R123 step 4) -/

theorem not_hasBegun (u : Taken) : (!hasBegun u) = decide (u.start = none) := by
  unfold hasBegun
  cases u.start <;> rfl

theorem newestFinish_eq_true_iff {x : Stream} {w : Write} : newestFinish x w = true ↔
    ∃ n b, (x.taken.filter hasBegun).getLast? = some n ∧ w.tag = .finish n.tid b := by
  unfold newestFinish newestBegun
  cases w.tag <;> cases (x.taken.filter hasBegun).getLast? <;> simp [eq_comm]

/-- The queue splits at the first state word of the newest begun span. -/
theorem pushAhead_queue {x : Stream} {ahead behind : List Write} (ws : List Write) (hq : x.queue = ahead ++ behind)
    (ha : ∀ w ∈ ahead, newestFinish x w = false)
    (hb : behind = [] ∨ ∃ w rest, behind = w :: rest ∧ newestFinish x w = true) :
    (pushAhead ws x).queue = ahead ++ ws ++ behind := by
  have h1 : ahead.takeWhile (fun v => !newestFinish x v) = ahead := List.takeWhile_eq_self_iff.2 fun w hw => by simp [ha w hw]
  have h2 : ahead.dropWhile (fun v => !newestFinish x v) = [] := List.dropWhile_eq_nil_iff.2 fun w hw => by simp [ha w hw]
  have htake : (ahead ++ behind).takeWhile (fun v => !newestFinish x v) = ahead := by
    rcases hb with rfl | ⟨w, rest, rfl, hw⟩
    · rw [List.append_nil, h1]
    · rw [List.takeWhile_append, h1, if_pos rfl]; simp [hw]
  have hdrop : (ahead ++ behind).dropWhile (fun v => !newestFinish x v) = behind := by
    rcases hb with rfl | ⟨w, rest, rfl, hw⟩
    · rw [List.append_nil, h2]
    · rw [List.dropWhile_append, h2]; simp [hw]
  simp only [pushAhead, hq, htake, hdrop]

/-- The spans given back by a stop. -/
theorem allGivenBack_eq (ts : List Taken) :
    (ts.map fun u => if hasBegun u then u else { u with givingBack := true }) = allGivenBack ts := by
  unfold allGivenBack
  refine List.map_congr_left fun u _ => ?_
  unfold hasBegun
  cases u.start <;> rfl

theorem filter_unbegun_eq (ts : List Taken) :
    ts.filter (fun t => !hasBegun t && !t.givingBack) = ts.filter (fun v => decide (v.start = none) && !v.givingBack) := by
  simp only [not_hasBegun]

theorem posted_write (u : Taken) : stateWrite u.addr wordPosted (.giveBack u.tid) =
    { addr := u.addr, bytes := [1#8, 0#8, 0#8, 0#8], tag := .giveBack u.tid } := by
  unfold stateWrite
  congr 1

/-- With every span begun or given back there is nothing to give back. -/
theorem giveBackUnbegun_of_none {x : Stream} (h : ∀ u ∈ x.taken, u.start ≠ none ∨ u.givingBack = true) :
    giveBackUnbegun x = x := by
  have e : x.taken.filter (fun t => !hasBegun t && !t.givingBack) = [] := by
    rw [filter_unbegun_eq, List.filter_eq_nil_iff]
    intro u hu
    rcases h u hu with h | h <;> simp [h]
  unfold giveBackUnbegun
  rw [e]

/-- What giving back does when there is a span to give back. -/
theorem giveBackUnbegun_of_some {x : Stream} {u : Taken} {rest : List Taken}
    (h : x.taken.filter (fun v => decide (v.start = none) && !v.givingBack) = u :: rest) :
    giveBackUnbegun x =
      { pushAhead ((u :: rest).map fun v => { addr := v.addr, bytes := [1#8, 0#8, 0#8, 0#8], tag := .giveBack v.tid }) x with
        taken := allGivenBack x.taken
        position := .span u.addr
        chain := { x.chain with anchor := none, expected := u.expBefore }
        staging := if stagedUnbegun x then none else x.staging
        gaveBack := true } := by
  have e := (filter_unbegun_eq x.taken).trans h
  unfold giveBackUnbegun
  rw [e]
  simp only [allGivenBack_eq, posted_write]

/-- Settles O13: with `pushAhead_queue` for the queue, the rest by the equation of `giveBackUnbegun`. -/
theorem stopGivesBackUnbegun : Obligations.StopGivesBackUnbegun := by
  unfold Obligations.StopGivesBackUnbegun
  intro x
  refine ⟨giveBackUnbegun_of_none, fun u rest ahead behind h hq ha hb => ?_⟩
  have hqueue := pushAhead_queue
    ((u :: rest).map fun v => { addr := v.addr, bytes := [1#8, 0#8, 0#8, 0#8], tag := .giveBack v.tid }) hq
    (fun w hw => by
      by_contra hn
      obtain ⟨n, b, hn, e⟩ := newestFinish_eq_true_iff.1 (Bool.not_eq_false _ ▸ hn)
      exact ha w hw n b hn e)
    (hb.imp_right fun ⟨w, ws, n, b, e, hn, ht⟩ => ⟨w, ws, e, newestFinish_eq_true_iff.2 ⟨n, b, hn, ht⟩⟩)
  rw [giveBackUnbegun_of_some h]
  refine ⟨hqueue, rfl, rfl, rfl, rfl, rfl, fun hs => by simp [hs], fun b v hs hf => ?_, fun b hs hf => ?_,
    ⟨rfl, rfl, rfl, rfl, rfl, rfl, rfl⟩, rfl⟩
  · simp only [stagedUnbegun, hs, hf, not_hasBegun, decide_eq_true_eq]
  · simp [stagedUnbegun, hs, hf]

/-- What giving back leaves of a stream, whatever there is to give back. -/
theorem giveBackUnbegun_kept (x : Stream) : (giveBackUnbegun x).taken = allGivenBack x.taken ∧
    SameHoldings x (giveBackUnbegun x) ∧ (giveBackUnbegun x).state = x.state ∧ (giveBackUnbegun x).owed = x.owed ∧
    (giveBackUnbegun x).tag = x.tag ∧ (giveBackUnbegun x).progressAddr = x.progressAddr ∧
    (giveBackUnbegun x).failing = x.failing ∧ (giveBackUnbegun x).skip = x.skip ∧ (giveBackUnbegun x).timer = x.timer ∧
    (giveBackUnbegun x).chain.wait = x.chain.wait := by
  cases h : x.taken.filter (fun v => decide (v.start = none) && !v.givingBack) with
  | nil =>
      have hn : ∀ u ∈ x.taken, u.start ≠ none ∨ u.givingBack = true := fun u hu => by
        have := List.filter_eq_nil_iff.1 h u hu
        simp only [Bool.and_eq_true, decide_eq_true_eq, not_and, Bool.not_eq_true', Bool.not_eq_false] at this
        exact (Classical.em (u.start = none)).elim (fun e => Or.inr (this e)) Or.inl
      rw [giveBackUnbegun_of_none hn]
      refine ⟨?_, ⟨rfl, rfl, rfl, rfl, rfl, rfl, rfl⟩, rfl, rfl, rfl, rfl, rfl, rfl, rfl, rfl⟩
      refine ((List.map_congr_left fun u hu => ?_).trans (List.map_id _)).symm
      rcases hn u hu with h | h
      · rw [if_neg h]; rfl
      · split
        · rw [← h]; rfl
        · rfl
  | cons u rest =>
      rw [giveBackUnbegun_of_some h]
      exact ⟨rfl, ⟨rfl, rfl, rfl, rfl, rfl, rfl, rfl⟩, rfl, rfl, rfl, rfl, rfl, rfl, rfl, rfl⟩

/-- Every span given back has its POSTED word queued. -/
theorem posted_mem_giveBackUnbegun {x : Stream} {u : Taken} (hu : u ∈ x.taken) (hs : u.start = none) (hg : u.givingBack = false) :
    { addr := u.addr, bytes := [1#8, 0#8, 0#8, 0#8], tag := .giveBack u.tid } ∈ (giveBackUnbegun x).queue := by
  have hm : u ∈ x.taken.filter (fun v => decide (v.start = none) && !v.givingBack) :=
    List.mem_filter.2 ⟨hu, by simp [hs, hg]⟩
  cases h : x.taken.filter (fun v => decide (v.start = none) && !v.givingBack) with
  | nil => rw [h] at hm; cases hm
  | cons v rest =>
      rw [giveBackUnbegun_of_some h]
      exact (mem_pushAhead _ x _).2 (Or.inr (List.mem_map.2 ⟨u, h ▸ hm, rfl⟩))

/-- What is queued stays queued when a stop gives back. -/
theorem mem_giveBackUnbegun {x : Stream} {w : Write} (hw : w ∈ x.queue) : w ∈ (giveBackUnbegun x).queue := by
  unfold giveBackUnbegun
  split
  · exact hw
  · exact (mem_pushAhead _ x w).2 (Or.inl hw)

/-! ## The stop work (R123, R173) -/

theorem settleStop_of_idle {k : StreamId} {s : State} (h : (s.stream k).state ≠ .stopping ∨ serving s k = true ∨ fetching s k = true) :
    settleStop k s = s := by
  unfold settleStop
  dsimp only
  rw [if_neg]
  rintro ⟨h1, h2, h3⟩
  rcases h with h | h | h
  · exact h h1
  · rw [h] at h2; cases h2
  · rw [h] at h3; cases h3

theorem settleStop_of_empty {k : StreamId} {s : State} (h1 : (s.stream k).state = .stopping) (h2 : serving s k = false)
    (h3 : fetching s k = false) (h4 : (s.stream k).taken = []) :
    settleStop k s = enterStopped k (onStream k (fun y => { y with position := stopPosition y }) s) := by
  unfold settleStop
  dsimp only
  rw [if_pos ⟨h1, h2, h3⟩, if_pos h4]

theorem settleStop_of_held {k : StreamId} {s : State} (h1 : (s.stream k).state = .stopping) (h2 : serving s k = false)
    (h3 : fetching s k = false) (h4 : (s.stream k).taken ≠ []) : settleStop k s = onStream k giveBackUnbegun s := by
  unfold settleStop
  dsimp only
  rw [if_pos ⟨h1, h2, h3⟩, if_neg h4]

/-- The stream that enters STOPPED at the end of its stop work. -/
theorem settleStop_stream_of_empty {k : StreamId} {s : State} (h1 : (s.stream k).state = .stopping) (h2 : serving s k = false)
    (h3 : fetching s k = false) (h4 : (s.stream k).taken = []) :
    (settleStop k s).stream k = enterRest k .stopped { s.stream k with position := stopPosition (s.stream k) } := by
  rw [settleStop_of_empty h1 h2 h3 h4, enterStopped_self, onStream_self]

/-- Once no fetch transaction of the stream is in progress, its stop work follows (R123). -/
theorem stopWorkFollows {k : StreamId} {s u : State} (hf : fetching u k = false) (hx : u.stream k = s.stream k)
    (hserve : serving u k = serving s k) (he : SameEvents s u) (hg : SameEventSetup s u) :
    StopWorkFollows k s (drain (settleStop k u)) := by
  unfold StopWorkFollows
  refine ⟨fun h1 h2 h4 => ?_, fun h1 h2 h4 => ?_, fun h => ?_⟩
  · rw [← hx] at h1 h4
    rw [← hserve] at h2
    have e := settleStop_stream_of_empty h1 h2 hf h4
    rw [hx] at e h4
    have hev : SameEvents (signal .stopped s) (settleStop k u) := by
      rw [settleStop_of_empty h1 h2 hf (hx ▸ h4)]
      exact sameEvents_signal .stopped ⟨he.evlatch, he.intx, he.messages⟩ ⟨hg.evmap, hg.msgEnabled, hg.msgVectors⟩
    have hpos : (settleStop k u).stream k = enterRest k .stopped { s.stream k with position := stopPosition (s.stream k) } := e
    refine ⟨by simp [e], by simp [e], by simp [e, h4], by simp [e], ⟨by simp [e], by simp [e], by simp [e], by simp [e], by simp [e],
      by simp [e], by simp [e]⟩, ?_, hev.trans (sameEvents_drain _), fun c hb hc hfin => ?_, fun h => ?_, fun p hp ho => ?_⟩
    · rw [drain_evlatch, settleStop_of_empty h1 h2 hf (hx ▸ h4)]; exact latched_enterStopped ..
    · simp [e, stopPosition, hb, hc, hfin]
    · rw [drain_stream_position, e, enterRest_position]
      unfold stopPosition
      rcases h with h | h
      · simp [h]
      · split
        · rfl
        · split
          · next c hc => simp [h c hc]
          · rfl
    · have hr : recordWrite k ((drain (settleStop k u)).stream k) p = recordWrite k
          { s.stream k with state := .stopped, tag := (s.stream k).tag + 1, position := stopPosition (s.stream k) } p := by
        rw [recordWrite_of_apart (drain_apart k _), e]
        exact recordWrite_handRecord k _ p
      rw [hr]
      refine underWay_record ?_
      rw [e]
      exact recordWrite_mem_handRecord ho hp
  · rw [← hx] at h1 h4
    rw [← hserve] at h2
    have e := settleStop_of_held h1 h2 hf h4
    obtain ⟨ht, _, hst, _⟩ := giveBackUnbegun_kept (s.stream k)
    rw [hx] at h1
    have hk : (settleStop k u).stream k = giveBackUnbegun (s.stream k) := by rw [e, onStream_self, hx]
    refine ⟨by rw [drain_apart, hk], by rw [drain_stream_state, hk, hst, h1], by rw [drain_stream_taken, hk, ht], ?_,
      fun w hw hs hgb => underWay_drain_of_mem ?_ rfl (by simp)⟩
    · rw [e]
      exact SameEvents.trans (t := onStream k giveBackUnbegun u) ⟨he.evlatch, he.intx, he.messages⟩ (sameEvents_drain _)
    · rw [hk]; exact posted_mem_giveBackUnbegun hw hs hgb
  · have e : settleStop k u = u := settleStop_of_idle (h.imp (fun h => by rw [hx]; exact h) fun h => Or.inl (by rw [hserve]; exact h))
    rw [e]
    exact ⟨by rw [drain_apart, hx], he.trans (sameEvents_drain u)⟩

end Sys2Proof.Machine
end

section
/-! PROOFS. The commands (R117 to R128): the judgement, STOP, OPEN, ABORT, RESUME and CLOSE. -/

namespace Sys2Proof.Machine

/-! ## The judgement (R117, R185) -/

theorem exec_commandDispatch_in_transition {s : State} {k : StreamId} (hp : s.cmd.result = .pending)
    (hk : s.cmd.stream.toNat = k.val) (ht : InTransition s k) : exec .commandDispatch s = .next s := by
  rw [exec_commandDispatch, execCommandDispatch, dispatchStream, if_pos hp, streamOf?_eq_some hk]
  dsimp only
  rw [if_pos ((inTransition_iff s k).2 ht)]

/-- Settles O11: the table of `judge` state by state, a refusal by `dispatchTo_of_refused`, a delay by the transition in
progress. -/
theorem commandJudgement : Obligations.CommandJudgement := by
  unfold Obligations.CommandJudgement
  refine ⟨fun tag x => ?_, fun s k code => ⟨fun hd hj => ?_, exec_commandDispatch_in_transition⟩⟩
  · simp only [judge, codeOpen, codeStop, codeAbort, codeResume, codeClose, codePoll, acceptIf]
    cases x.state <;> simp [atRest]
  · rw [exec_commandDispatch_of_dispatches hd]
    rw [← hd.code_eq] at hj ⊢
    rw [dispatchTo_of_refused hj]

/-- A command that can be judged finds no record owed. -/
theorem Dispatches.owed_eq_nil {s : State} {k : StreamId} {code : BitVec 3} (h : Dispatches s k code) : (s.stream k).owed = [] := by
  obtain ⟨-, -, -, hn⟩ := h
  by_contra ho
  exact hn (Or.inl ho)

/-- An accepted command takes effect on the state that shows it as accepted. -/
theorem exec_dispatch_accepted {s : State} {k : StreamId} {code : BitVec 3} (h : Dispatches s k code)
    (hj : judge code s.cmd.tag (s.stream k) = .accepted) :
    exec .commandDispatch s = .next (drain (perform s.cmd k (s.judged .accepted))) := by
  rw [exec_commandDispatch_of_dispatches h, dispatchTo_of_accepted (by rw [h.code_eq]; exact hj)]

theorem perform_open {c : CmdReg} (h : c.code = 1#3) (k : StreamId) (s : State) : perform c k s = acceptOpen k s := by
  rw [perform, h]; rfl

theorem perform_stop {c : CmdReg} (h : c.code = 2#3) (k : StreamId) (s : State) : perform c k s = acceptStop k s := by
  rw [perform, h]; rfl

theorem perform_abort {c : CmdReg} (h : c.code = 3#3) (k : StreamId) (s : State) : perform c k s = acceptAbort k s := by
  rw [perform, h]; rfl

theorem perform_resume {c : CmdReg} (h : c.code = 4#3) (k : StreamId) (s : State) :
    perform c k s = acceptResume k c.skip s := by
  rw [perform, h]; rfl

theorem perform_close {c : CmdReg} (h : c.code = 5#3) (k : StreamId) (s : State) : perform c k s = acceptClose k s := by
  rw [perform, h]; rfl

/-! ## STOP (R122, R123) -/

theorem fetching_markStale (k j : StreamId) (s : State) : fetching (markStale k s) j = fetching s j := by
  rcases markStale_cases k s with e | ⟨_, _, _, _, hf, e⟩
  · rw [e]
  · rw [e, fetching, fetching, hf]

theorem serving_markStale (k j : StreamId) (s : State) : serving (markStale k s) j = serving s j := by
  rw [serving, serving, markStale_engine]

theorem settleStop_fetch (k : StreamId) (s : State) : (settleStop k s).fetch = s.fetch := by
  rcases settleStop_cases k s with h | ⟨_, _, _, ⟨_, h⟩ | ⟨_, h⟩⟩ <;> rw [h]
  · rw [enterStopped, signal_fetch]; rfl
  · rfl

theorem mem_settleStop_queue {k : StreamId} {s : State} {w : Write} (h : w ∈ (s.stream k).queue) :
    w ∈ ((settleStop k s).stream k).queue := by
  rcases settleStop_cases k s with e | ⟨_, _, _, ⟨_, e⟩ | ⟨_, e⟩⟩ <;> rw [e]
  · exact h
  · rw [enterStopped_self, onStream_self]; exact mem_handRecord_queue k _ w h
  · rw [onStream_self]; exact mem_giveBackUnbegun h

theorem advanceActive_apart (x : Stream) : (advanceActive x).apart = x.apart := by
  unfold advanceActive
  split <;> rfl

/-- What is queued and no ACTIVE word stays queued. -/
theorem mem_advanceActive {x : Stream} {w : Write} (h : w ∈ x.queue) (hw : w.tag ≠ .active) : w ∈ (advanceActive x).queue := by
  unfold advanceActive
  split
  · exact h
  · exact (mem_pushAhead _ _ w).2 (Or.inl (List.mem_filter.2 ⟨h, by simp [hw]⟩))

/-- A stream as STOP has brought it to STOPPING, before its stop work. -/
def stopping (k : StreamId) (x : Stream) : Stream :=
  advanceActive (enterState k .stopping (endWait { x with flushMade := false, gaveBack := false }))

theorem stopping_apart (k : StreamId) {x : Stream} (h : x.owed = []) : (stopping k x).apart = { x.apart with
    state := .stopping, timer := none, readDue := false, pollAgain := false, flushMade := false, gaveBack := false
    chain := { x.chain with wait := .none } } := by
  rw [stopping, advanceActive_apart, enterState_apart k .stopping _ (by simpa using h)]
  rfl

theorem record_mem_stopping {k : StreamId} {x : Stream} {p : Nat} (ho : x.owed = []) (hp : x.progressAddr = some p) :
    recordWrite k { x with state := .stopping } p ∈ (stopping k x).queue :=
  mem_advanceActive (recordWrite_mem_handRecord (k := k)
    (x := { endWait { x with flushMade := false, gaveBack := false } with state := .stopping }) ho hp) (by simp [recordWrite])

theorem acceptStop_of_idle {k : StreamId} {s : State} (h1 : (s.stream k).state = .awaitLink) (h2 : (s.stream k).taken = [])
    (h3 : taking s k = false) : acceptStop k s = enterStopped k (markStale k (onStream k endWait s)) :=
  if_pos ⟨h1, h2, h3⟩

theorem acceptStop_of_busy {k : StreamId} {s : State} (h : (s.stream k).state = .running ∨ (s.stream k).state = .awaitLink ∧
    ((s.stream k).taken ≠ [] ∨ taking s k = true)) : acceptStop k s = settleStop k (markStale k (onStream k (stopping k) s)) := by
  refine if_neg ?_
  rintro ⟨h1, h2, h3⟩
  rcases h with h | ⟨_, h | h⟩
  · rw [h1] at h; cases h
  · exact h h2
  · rw [h3] at h; cases h

/-- A fetch transaction that STOP, ABORT or CLOSE finds goes on (R173). -/
theorem fetchStays_of_markStale {k : StreamId} {s u t : State} (hu : u.fetch = s.fetch) (ht : t.fetch = (markStale k u).fetch) :
    FetchStays k s t := by
  have h := markStale_fetchStays k u
  unfold FetchStays at h ⊢
  rw [ht, ← hu]
  exact h

/-- STOP accepted with nothing to do (R122). -/
theorem stop_at_once {s : State} {k : StreamId} (hd : Dispatches s k 2#3) (hx : (s.stream k).state = .awaitLink)
    (htaken : (s.stream k).taken = []) (htaking : taking s k = false) :
    ∃ t : State, exec .commandDispatch s = .next t ∧ t.cmd = (s.judged .accepted).cmd ∧
      (t.stream k).apart = { (s.stream k).apart with
        state := .stopped, tag := (s.stream k).tag + 1, timer := none, readDue := false, pollAgain := false
        chain := { (s.stream k).chain with wait := .none } } ∧
      (∀ p, (s.stream k).progressAddr = some p → UnderWay t k
        (recordWrite k { s.stream k with state := .stopped, tag := (s.stream k).tag + 1 } p)) ∧
      latched t.evlatch .stopped = true ∧ FetchStays k s t ∧ OthersKept k s t ∧ SameStatus s t ∧ SameAround s t := by
  have ho := hd.owed_eq_nil
  have hj : judge 2#3 s.cmd.tag (s.stream k) = .accepted := by
    rw [(commandJudgement.1 s.cmd.tag (s.stream k)).2.1, if_pos (Or.inr hx)]
  have hexec := exec_dispatch_accepted hd hj
  rw [perform_stop hd.code_eq, acceptStop_of_idle (s := s.judged .accepted) hx htaken htaking] at hexec
  have hw : Works .signals k (s.judged .accepted)
      (enterStopped k (markStale k (onStream k endWait (s.judged .accepted)))) :=
    ((Works.stream _ .refl).trans (works_markStale k _)).trans (works_enterStopped k _ (by simp))
  have hst : (enterStopped k (markStale k (onStream k endWait (s.judged .accepted)))).stream k =
      enterRest k .stopped (endWait (s.stream k)) := by
    rw [enterStopped_self, markStale_stream, onStream_self, judged_stream]
  refine ⟨_, hexec, (drain_cmd _).trans hw.cmd, ?_, fun p hp => ?_, ?_, ?_, hw.others rfl, hw.status (by simp) ⟨rfl, rfl⟩,
    hw.around (sameAround_judged s _)⟩
  · rw [drain_apart, hst, enterRest_apart k .stopped _ (by simpa using ho)]; rfl
  · refine underWay_record ?_
    rw [hst]
    exact recordWrite_mem_handRecord (x := { endWait (s.stream k) with state := .stopped, tag := (s.stream k).tag + 1 }) ho hp
  · rw [drain_evlatch]; exact latched_enterStopped k _
  · refine fetchStays_of_markStale (u := onStream k endWait (s.judged .accepted)) rfl ?_
    rw [drain_fetch, enterStopped, signal_fetch, onStream_fetch]

/-- Settles O12: `stop_at_once`, and else the stream is `stopping` and its stop work is `stopWorkFollows`. -/
theorem stopAccepted : Obligations.StopAccepted := by
  unfold Obligations.StopAccepted
  refine ⟨fun s k => stop_at_once, fun s k hd hx => ?_⟩
  have ho := hd.owed_eq_nil
  have hj : judge 2#3 s.cmd.tag (s.stream k) = .accepted := by
    rw [(commandJudgement.1 s.cmd.tag (s.stream k)).2.1, if_pos (hx.imp_right And.left)]
  have hexec := exec_dispatch_accepted hd hj
  rw [perform_stop hd.code_eq, acceptStop_of_busy (s := s.judged .accepted) hx] at hexec
  -- the state before the stop work
  obtain ⟨m, hm⟩ : ∃ m, m = markStale k (onStream k (stopping k) (s.judged .accepted)) := ⟨_, rfl⟩
  have hmk : m.stream k = stopping k (s.stream k) := by rw [hm, markStale_stream, onStream_self, judged_stream]
  have hms : serving m k = serving s k := by rw [hm, serving_markStale]; rfl
  have hmf : fetching m k = fetching s k := by rw [hm, fetching_markStale]; rfl
  have hme : SameEvents s m := by rw [hm]; constructor <;> simp [State.judged]
  have hmg : SameEventSetup s m := by rw [hm]; constructor <;> simp [State.judged]
  have hap := stopping_apart k ho
  have hstate : (stopping k (s.stream k)).state = .stopping := (congrArg Stream.state hap :)
  have htaken : (stopping k (s.stream k)).taken = (s.stream k).taken := (congrArg Stream.taken hap :)
  have hw : Works .signals k (s.judged .accepted) (settleStop k m) := by
    rw [hm]
    exact ((Works.stream _ .refl).trans (works_markStale k _)).trans (works_settleStop k _ (by simp))
  have hstop : fetching s k = false → ∀ z, z = stopping k (s.stream k) → StopWorkFollows k (s.setStream k z) (drain (settleStop k m)) := by
    rintro hf z rfl
    exact stopWorkFollows (hmf.trans hf) (by rw [hmk, State.stream_setStream_self]) hms
      ⟨hme.evlatch, hme.intx, hme.messages⟩ ⟨hmg.evmap, hmg.msgEnabled, hmg.msgVectors⟩
  rw [← hm] at hexec
  have hy : ((drain (settleStop k m)).stream k).apart = ((settleStop k m).stream k).apart := drain_apart k _
  -- the stream in the three cases of the stop work
  have hidle : serving s k = true ∨ fetching s k = true → (settleStop k m).stream k = stopping k (s.stream k) := fun h => by
    rw [settleStop_of_idle (Or.inr (h.imp (fun e => hms.trans e) fun e => hmf.trans e)), hmk]
  have hempty : (s.stream k).taken = [] → serving s k = false → fetching s k = false → (settleStop k m).stream k =
      enterRest k .stopped { stopping k (s.stream k) with position := stopPosition (stopping k (s.stream k)) } := fun h1 h2 h3 => by
    rw [settleStop_stream_of_empty (by rw [hmk, hstate]) (hms.trans h2) (hmf.trans h3) (by rw [hmk, htaken, h1]), hmk]
  have hheld : (s.stream k).taken ≠ [] → serving s k = false → fetching s k = false → (settleStop k m).stream k =
      giveBackUnbegun (stopping k (s.stream k)) := fun h1 h2 h3 => by
    rw [settleStop_of_held (by rw [hmk, hstate]) (hms.trans h2) (hmf.trans h3) (by rw [hmk, htaken]; exact h1), onStream_self, hmk]
  obtain ⟨hgt, hgh, hgs, hgo, hgtag, hgp, hgfail, hgskip, hgtimer, hgwait⟩ := giveBackUnbegun_kept (stopping k (s.stream k))
  have hkeep : SameHoldings (s.stream k) (stopping k (s.stream k)) :=
    ⟨(congrArg Stream.ctx hap :), (congrArg Stream.schedule hap :), (congrArg Stream.slot0 hap :), (congrArg Stream.slot1 hap :),
      (congrArg Stream.counters hap :), (congrArg Stream.progressAddr hap :), (congrArg Stream.openCode hap :)⟩
  -- what the stop work keeps of the stream, whichever case it is
  have hkept : SameHoldings (s.stream k) ((settleStop k m).stream k) ∧ ((settleStop k m).stream k).failing = (s.stream k).failing ∧
      ((settleStop k m).stream k).skip = (s.stream k).skip ∧ ((settleStop k m).stream k).timer = none ∧
      ((settleStop k m).stream k).chain.wait = .none := by
    have hfail : (stopping k (s.stream k)).failing = (s.stream k).failing := (congrArg Stream.failing hap :)
    have hskip : (stopping k (s.stream k)).skip = (s.stream k).skip := (congrArg Stream.skip hap :)
    have htimer : (stopping k (s.stream k)).timer = none := (congrArg Stream.timer hap :)
    have hchain : (stopping k (s.stream k)).chain.wait = .none := (congrArg (fun y => y.chain.wait) hap :)
    by_cases hb : serving s k = true ∨ fetching s k = true
    · rw [hidle hb]; exact ⟨hkeep, hfail, hskip, htimer, hchain⟩
    · obtain ⟨h2, h3⟩ := not_or.1 hb
      rw [Bool.not_eq_true] at h2 h3
      by_cases h1 : (s.stream k).taken = []
      · rw [hempty h1 h2 h3]
        refine ⟨⟨?_, ?_, ?_, ?_, ?_, ?_, ?_⟩, ?_, ?_, ?_, ?_⟩ <;> simp [hfail, hskip, htimer, hchain, hkeep.ctx, hkeep.schedule,
          hkeep.slot0, hkeep.slot1, hkeep.counters, hkeep.progressAddr, hkeep.openCode]
      · rw [hheld h1 h2 h3]
        exact ⟨⟨hgh.ctx.trans hkeep.ctx, hgh.schedule.trans hkeep.schedule, hgh.slot0.trans hkeep.slot0, hgh.slot1.trans hkeep.slot1,
          hgh.counters.trans hkeep.counters, hgh.progressAddr.trans hkeep.progressAddr, hgh.openCode.trans hkeep.openCode⟩,
          hgfail.trans hfail, hgskip.trans hskip, hgtimer.trans htimer, hgwait.trans hchain⟩
  obtain ⟨⟨hc, hsch, h0, h1, hcnt, hpa, hoc⟩, hfail, hskip, htimer, hwait⟩ := hkept
  refine ⟨_, hexec, (drain_cmd _).trans hw.cmd, fun h => ?_, fun ⟨h1, h2, h3⟩ => ?_, ⟨?_, ?_, ?_, ?_, ?_, ?_, ?_⟩, ?_, ?_, ?_, ?_,
    fun ⟨h2, h3⟩ => ?_, fun h => ?_, ?_, fun p hp => ⟨?_, fun hs => ?_⟩, ?_, hw.others rfl, hw.status (by simp) ⟨rfl, rfl⟩,
    hw.around (sameAround_judged s _)⟩
  · rw [drain_stream_state]
    by_cases hb : serving s k = true ∨ fetching s k = true
    · rw [hidle hb, hstate]
    · obtain ⟨h2, h3⟩ := not_or.1 hb
      rw [hheld (h.resolve_right hb) (by simpa using h2) (by simpa using h3), hgs, hstate]
  · rw [drain_stream_state, hempty h1 h2 h3, enterRest_state]
  · rw [drain_stream_ctx, hc]
  · rw [drain_stream_schedule, hsch]
  · rw [drain_stream_slot0, h0]
  · rw [drain_stream_slot1, h1]
  · rw [drain_stream_counters, hcnt]
  · rw [drain_stream_progressAddr, hpa]
  · rw [drain_stream_openCode, hoc]
  · rw [drain_stream_failing, hfail]
  · rw [drain_stream_skip, hskip]
  · rw [drain_stream_timer, htimer]
  · rw [drain_stream_chain, hwait]
  · rw [drain_stream_taken]
    by_cases h1 : (s.stream k).taken = []
    · rw [hempty h1 h2 h3, enterRest_taken]
      show (stopping k (s.stream k)).taken = _
      rw [htaken, h1]; rfl
    · rw [hheld h1 h2 h3, hgt, htaken]
  · rw [drain_stream_taken, drain_stream_position, drain_stream_chain, hidle h]
    exact ⟨htaken, (congrArg Stream.position hap :), (congrArg (fun y => y.chain.anchor) hap :),
      (congrArg (fun y => y.chain.expected) hap :)⟩
  · rintro _ rfl
    refine ⟨fun h => ⟨by rw [hy, hidle h, hap], ?_⟩, fun _ h3 => ⟨_, hap, hstop h3 _ rfl⟩⟩
    rw [settleStop_of_idle (Or.inr (h.imp (fun e => hms.trans e) fun e => hmf.trans e))]
    exact hme.trans (sameEvents_drain m)
  · refine underWay_record (mem_settleStop_queue ?_)
    rw [hmk]; exact record_mem_stopping ho hp
  · rw [drain_stream_state] at hs
    have hb : ¬(serving s k = true ∨ fetching s k = true) := fun hb => by rw [hidle hb, hstate] at hs; cases hs
    obtain ⟨h2, h3⟩ := not_or.1 hb
    rw [Bool.not_eq_true] at h2 h3
    have h1 : (s.stream k).taken = [] := by
      by_contra h1
      rw [hheld h1 h2 h3, hgs, hstate] at hs; cases hs
    have hfollows := (hstop h3 _ rfl).1
    rw [State.stream_setStream_self] at hfollows
    obtain ⟨_, htag, _, _, _, _, _, _, _, hrec⟩ := hfollows hstate h2 (by rw [htaken, h1])
    exact ⟨htag.trans (congrArg (· + 1) (congrArg Stream.tag hap :)), hrec p ((congrArg Stream.progressAddr hap :).trans hp)
      ((congrArg Stream.owed hap :).trans ho)⟩
  · refine fetchStays_of_markStale (u := onStream k (stopping k) (s.judged .accepted)) rfl ?_
    rw [drain_fetch, settleStop_fetch, hm]

/-! ## OPEN, ABORT and RESUME (R118, R124, R127) -/

/-- ABORT accepted (R124). -/
theorem abort_accepted {s : State} {k : StreamId} (hd : Dispatches s k 3#3)
    (hx : (s.stream k).state = .running ∨ (s.stream k).state = .awaitLink ∨ (s.stream k).state = .stopping) :
    ∃ t : State, exec .commandDispatch s = .next t ∧ t.cmd = (s.judged .accepted).cmd ∧
      (t.stream k).apart = { (s.stream k).apart with
        state := .aborting, staging := none, timer := none, readDue := false, pollAgain := false
        chain := { (s.stream k).chain with wait := .none } } ∧
      (∀ p, (s.stream k).progressAddr = some p →
        UnderWay t k (recordWrite k { s.stream k with state := .aborting } p)) ∧
      FetchStays k s t ∧ OthersKept k s t ∧ SameStatus s t ∧ SameEvents s t ∧ SameAround s t := by
  have ho := hd.owed_eq_nil
  have hj : judge 3#3 s.cmd.tag (s.stream k) = .accepted := by
    rw [(commandJudgement.1 s.cmd.tag (s.stream k)).2.2.1, if_pos hx]
  have hexec := exec_dispatch_accepted hd hj
  rw [perform_abort hd.code_eq] at hexec
  have hw : Works .silent k (s.judged .accepted) (acceptAbort k (s.judged .accepted)) :=
    (Works.stream _ .refl).trans (works_markStale k _)
  have hst : (acceptAbort k (s.judged .accepted)).stream k =
      enterState k .aborting (endWait { s.stream k with staging := none }) := by
    rw [acceptAbort, markStale_stream, onStream_self, judged_stream]
  refine ⟨_, hexec, (drain_cmd _).trans hw.cmd, ?_, fun p hp => ?_, ?_, hw.others rfl, hw.status (by simp) ⟨rfl, rfl⟩,
    hw.events ⟨rfl, rfl, rfl⟩, hw.around (sameAround_judged s _)⟩
  · rw [drain_apart, hst, enterState_apart k .aborting _ (by simpa using ho)]; rfl
  · refine underWay_record ?_
    rw [hst]
    exact recordWrite_mem_handRecord (x := { endWait { s.stream k with staging := none } with state := .aborting }) ho hp
  · refine fetchStays_of_markStale (u := onStream k (fun x => enterState k .aborting (endWait { x with staging := none }))
      (s.judged .accepted)) rfl ?_
    rw [drain_fetch, acceptAbort]

/-- What is known of the anchor's next-link is forgotten where the anchor is the chain position, and nothing else changes. -/
theorem forgetLink_form (x : Stream) : ∃ a, forgetLink x = { x with chain := { x.chain with anchor := a } } ∧
    ((∀ b, x.position ≠ .anchor b) → a = x.chain.anchor) ∧
    ∀ b, x.position = .anchor b → a = x.chain.anchor.map fun c => { c with link := 0 } := by
  unfold forgetLink
  split
  · next b hb => exact ⟨_, rfl, fun hn => absurd hb (hn b), fun _ _ => rfl⟩
  · next hn => exact ⟨_, rfl, fun _ => rfl, fun b hb => absurd hb (hn b)⟩

/-- Settles O14: OPEN, ABORT and RESUME by their equations, each accepted by the table of R117. -/
theorem openAbortAndResumeAccepted : Obligations.OpenAbortAndResumeAccepted := by
  unfold Obligations.OpenAbortAndResumeAccepted
  refine ⟨fun s k hd hx => ?_, fun s k => abort_accepted, fun s k hd hx htag => ?_⟩
  · have hj : judge 1#3 s.cmd.tag (s.stream k) = .accepted := by
      rw [(commandJudgement.1 s.cmd.tag (s.stream k)).1, if_pos hx]
    rw [exec_dispatch_accepted hd hj, perform_open hd.code_eq]
    rfl
  · have ho := hd.owed_eq_nil
    have hj : judge 4#3 s.cmd.tag (s.stream k) = .accepted := by
      rw [(commandJudgement.1 s.cmd.tag (s.stream k)).2.2.2.1, if_pos hx, if_pos htag]
    have hexec := exec_dispatch_accepted hd hj
    rw [perform_resume hd.code_eq] at hexec
    have hw : Works .silent k (s.judged .accepted) (acceptResume k s.cmd.skip (s.judged .accepted)) := Works.stream _ .refl
    have hst : (acceptResume k s.cmd.skip (s.judged .accepted)).stream k = enterState k .running (forgetLink { s.stream k with
        skip := if s.cmd.skip then (s.stream k).failing.map (fun f => f.addr) else none
        flushMade := false, gaveBack := false }) := by
      rw [acceptResume, onStream_self, judged_stream]
    obtain ⟨a, ha, hother, hanchor⟩ := forgetLink_form { s.stream k with
      skip := if s.cmd.skip then (s.stream k).failing.map (fun f => f.addr) else none, flushMade := false, gaveBack := false }
    rw [ha] at hst
    refine ⟨_, hexec, (drain_cmd _).trans hw.cmd, by simp [hst], by simp [hst], by simp [hst],
      ⟨by simp [hst], by simp [hst], by simp [hst], by simp [hst], by simp [hst], by simp [hst], by simp [hst]⟩, by simp [hst],
      by simp [hst], by simp [hst], by simp [hst], fun hn => ?_, fun b hb => ?_, by simp [hst], by simp [hst], by simp [hst],
      by simp [hst], by simp [hst], fun p hp => ?_, hw.others rfl, hw.status (by simp) ⟨rfl, rfl⟩, hw.events ⟨rfl, rfl, rfl⟩,
      hw.around (sameAround_judged s _), drain_fetch _⟩
    · rw [drain_stream_chain, hst, enterState_chain]
      exact hother hn
    · rw [drain_stream_chain, hst, enterState_chain]
      exact hanchor b hb
    · refine underWay_record ?_
      rw [hst]
      exact recordWrite_mem_handRecord (k := k) (p := p) ho hp

/-! ## CLOSE (R128) -/

theorem closeChain_of_finished {k : StreamId} {x : Stream} {c : Anchor} (hc : x.chain.anchor = some c) (hf : c.finished = true) :
    closeChain k x = pushWrite (stateWrite c.addr wordReleased (.anchorRelease .close c.sequence)) { x with chain := Chain.empty } := by
  unfold closeChain
  rw [hc]
  exact if_pos hf

theorem closeChain_of_none {k : StreamId} {x : Stream} (h : ∀ c, x.chain.anchor = some c → c.finished = false) :
    closeChain k x = { handOwed k { x with chain := Chain.empty } with progressAddr := none } := by
  unfold closeChain
  cases hc : x.chain.anchor with
  | none => rfl
  | some c => simp [h c hc]

/-- What emptying the chain context keeps. -/
theorem closeChain_kept (k : StreamId) (x : Stream) : (closeChain k x).chain = Chain.empty ∧ (closeChain k x).state = x.state ∧
    (closeChain k x).tag = x.tag ∧ (closeChain k x).ctx = x.ctx ∧ (closeChain k x).slot0 = x.slot0 ∧
    (closeChain k x).slot1 = x.slot1 ∧ (closeChain k x).taken = x.taken ∧ (closeChain k x).skip = x.skip ∧
    (closeChain k x).position = x.position ∧ (closeChain k x).failing = x.failing ∧ (closeChain k x).openCode = x.openCode ∧
    (closeChain k x).counters = x.counters := by
  by_cases h : ∃ c, x.chain.anchor = some c ∧ c.finished = true
  · obtain ⟨c, hc, hf⟩ := h
    rw [closeChain_of_finished hc hf]
    exact ⟨rfl, rfl, rfl, rfl, rfl, rfl, rfl, rfl, rfl, rfl, rfl, rfl⟩
  · rw [closeChain_of_none fun c hc => by
      by_contra hf
      exact h ⟨c, hc, by simpa using hf⟩]
    refine ⟨?_, ?_, ?_, ?_, ?_, ?_, ?_, ?_, ?_, ?_, ?_, ?_⟩ <;> simp

theorem waitReading_eq_true {s : State} {k : StreamId} (h : waitReading s k = true) :
    ∃ target a whole stale, s.fetch = some { stream := k, phase := .wait target a whole stale } := by
  unfold waitReading at h
  split at h
  · next j target a whole stale e =>
      obtain rfl : j = k := by simpa using h
      exact ⟨target, a, whole, stale, e⟩
  · cases h

/-- The end of a wait read whose stream has been closed (R128, R173; log entry 19). -/
theorem exec_waitReadDone_closed {t : State} {k : StreamId} {target : WaitTarget} {a : Nat} {whole : Bool}
    (hf : t.fetch = some { stream := k, phase := .wait target a whole true }) (hx : (t.stream k).state = .closed)
    (data : ReadResult) : exec (.waitReadDone data) t = .next (drain (onStream k (closeChain k) (endFetch t))) := by
  show execWaitReadDone data t = _
  unfold execWaitReadDone
  rw [hf]
  simp [endStale, hx]

/-- Settles O15: CLOSE is `discardStream`, and `closeChain` at once or when a wait read in progress ends. -/
theorem closeAccepted : Obligations.CloseAccepted := by
  unfold Obligations.CloseAccepted
  intro s k hd hx
  have ho := hd.owed_eq_nil
  have hj : judge 5#3 s.cmd.tag (s.stream k) = .accepted := by
    rw [(commandJudgement.1 s.cmd.tag (s.stream k)).2.2.2.2.1, if_pos hx]
  have hexec := exec_dispatch_accepted hd hj
  rw [perform_close hd.code_eq] at hexec
  -- the stream discarded, its chain context still there
  obtain ⟨m, hm⟩ : ∃ m, m = signal .stopped (markStale k (onStream k discardStream (s.judged .accepted))) := ⟨_, rfl⟩
  have hmk : m.stream k = discardStream (s.stream k) := by rw [hm, signal_stream, markStale_stream, onStream_self, judged_stream]
  have hwm : Works .signals k (s.judged .accepted) m := by
    rw [hm]
    exact ((Works.stream _ .refl).trans (works_markStale k _)).signal _ (by simp)
  have hlatch : latched m.evlatch .stopped = true := by rw [hm, latched_signal]; simp
  have hmf : m.fetch = (markStale k (onStream k discardStream (s.judged .accepted))).fetch := by rw [hm, signal_fetch]
  have hcases : acceptClose k (s.judged .accepted) = if waitReading s k then m else onStream k (closeChain k) m := by
    rw [hm]; rfl
  rw [hcases] at hexec
  cases hwr : waitReading s k with
  | false =>
      rw [hwr, if_neg (by simp)] at hexec
      have hw : Works .signals k (s.judged .accepted) (onStream k (closeChain k) m) := hwm.stream _
      have hst : (onStream k (closeChain k) m).stream k = closeChain k (discardStream (s.stream k)) := by
        rw [onStream_self, hmk]
      obtain ⟨hchain, hstate, htag, hctx, h0, h1, htaken, hskip, hpos, hfail, hcode, hcount⟩ :=
        closeChain_kept k (discardStream (s.stream k))
      refine ⟨_, hexec, (drain_cmd _).trans hw.cmd, ⟨?_, ?_, ?_, ?_, ?_, ?_, ?_, ?_, ?_, ?_, ?_⟩,
        fun _ => ⟨?_, fun c hc hf => ⟨?_, ?_⟩, fun hn p hp => ?_⟩, fun h => (by cases h), ?_, ?_, hw.others rfl,
        hw.status (by simp) ⟨rfl, rfl⟩, hw.around (sameAround_judged s _)⟩
      · rw [drain_stream_state, hst, hstate]; rfl
      · rw [drain_stream_ctx, hst, hctx]; rfl
      · rw [drain_stream_slot0, hst, h0]; rfl
      · rw [drain_stream_slot1, hst, h1]; rfl
      · rw [drain_stream_taken, hst, htaken]; rfl
      · rw [drain_stream_skip, hst, hskip]; rfl
      · rw [drain_stream_position, hst, hpos]; rfl
      · rw [drain_stream_tag, hst, htag]; rfl
      · rw [drain_stream_failing, hst, hfail]; rfl
      · rw [drain_stream_openCode, hst, hcode]; rfl
      · rw [drain_stream_counters, hst, hcount]; rfl
      · rw [drain_stream_chain, hst, hchain]; rfl
      · rw [drain_stream_owed, hst, closeChain_of_finished (x := discardStream (s.stream k)) hc hf]
        show (s.stream k).owed ++ [.closed] = _
        rw [ho]; rfl
      · refine underWay_drain_of_mem ?_ rfl (by simp)
        rw [hst, closeChain_of_finished (x := discardStream (s.stream k)) hc hf]
        exact List.mem_append_right _ (List.mem_singleton.2 rfl)
      · refine underWay_record ?_
        rw [hst, closeChain_of_none (x := discardStream (s.stream k)) hn]
        have hh : (handOwed k { discardStream (s.stream k) with chain := Chain.empty }).queue = (s.stream k).queue ++
            ((s.stream k).owed ++ [StreamState.closed]).map
              (fun st => recordWrite k { { discardStream (s.stream k) with chain := Chain.empty } with state := st } p) := by
          unfold handOwed
          simp only [discardStream, oweRecord, endWait, hp]
        show recordWrite k _ p ∈ (handOwed k { discardStream (s.stream k) with chain := Chain.empty }).queue
        rw [hh]
        refine List.mem_append_right _ (List.mem_map.2 ⟨.closed, by simp, ?_⟩)
        rfl
      · rw [drain_evlatch]; exact hlatch
      · exact fetchStays_of_markStale (u := onStream k discardStream (s.judged .accepted)) rfl ((drain_fetch _).trans hmf)
  | true =>
      rw [hwr, if_pos rfl] at hexec
      have hfs : FetchStays k s (drain m) :=
        fetchStays_of_markStale (u := onStream k discardStream (s.judged .accepted)) rfl ((drain_fetch _).trans hmf)
      have hstate : ((drain m).stream k).state = .closed := by rw [drain_stream_state, hmk]; rfl
      have htag : ((drain m).stream k).tag = (s.stream k).tag := by rw [drain_stream_tag, hmk]; rfl
      obtain ⟨target, a, whole, stale, hf⟩ := waitReading_eq_true hwr
      have hft := hfs.1 target a whole stale hf
      refine ⟨_, hexec, (drain_cmd _).trans hwm.cmd, ⟨hstate, ?_, ?_, ?_, ?_, ?_, ?_, htag, ?_, ?_, ?_⟩, fun h => (by cases h),
        fun _ => ⟨?_, fun data => ?_⟩, ?_, hfs, hwm.others rfl, hwm.status (by simp) ⟨rfl, rfl⟩,
        hwm.around (sameAround_judged s _)⟩
      · rw [drain_stream_ctx, hmk]; rfl
      · rw [drain_stream_slot0, hmk]; rfl
      · rw [drain_stream_slot1, hmk]; rfl
      · rw [drain_stream_taken, hmk]; rfl
      · rw [drain_stream_skip, hmk]; rfl
      · rw [drain_stream_position, hmk]; rfl
      · rw [drain_stream_failing, hmk]; rfl
      · rw [drain_stream_openCode, hmk]; rfl
      · rw [drain_stream_counters, hmk]; rfl
      · rw [drain_stream_chain, hmk]; rfl
      · obtain ⟨hchain, hstate', htag', _⟩ := closeChain_kept k ((drain m).stream k)
        have hw : Works .silent k (drain m) (onStream k (closeChain k) (endFetch (drain m))) := (works_endFetch k _).stream _
        refine ⟨_, exec_waitReadDone_closed hft hstate data, drain_fetch _, ?_, ?_, ?_, hw.others rfl, hw.around (sameAround_refl _)⟩
        · rw [drain_stream_chain, onStream_self, endFetch_stream, hchain]; rfl
        · rw [drain_stream_state, onStream_self, endFetch_stream, hstate', hstate]
        · rw [drain_stream_tag, onStream_self, endFetch_stream, htag', htag]
      · rw [drain_evlatch]; exact hlatch

end Sys2Proof.Machine
end

section
/-! PROOFS. The two arbiters: who is granted, who asks (R170, R171, R174), and what a block or a flush keeps of its stream. -/

namespace Sys2Proof.Machine

/-! ## Round robin (R171, R174) -/

theorem getElem_roundRobin (last : StreamId) (i : Nat) (h : i < (roundRobin last).length) :
    (roundRobin last)[i] = last + 1 + ⟨i, by simpa [roundRobin] using h⟩ := by
  simp only [roundRobin, List.getElem_map, List.getElem_finRange]
  rfl

/-- The grant goes to the stream that comes first counted upward from the one after the last granted. -/
theorem firstAfter_least {last k : StreamId} {p : StreamId → Bool} (h : firstAfter last p = some k) (i : StreamId)
    (hi : p i = true) : (k - (last + 1)).val ≤ (i - (last + 1)).val := by
  obtain ⟨-, n, hn, rfl, hbefore⟩ := List.find?_eq_some_iff_getElem.1 h
  rw [getElem_roundRobin, add_sub_cancel_left]
  by_contra hlt
  have hlt : (i - (last + 1)).val < n := by simpa using hlt
  have hb := hbefore _ hlt
  rw [getElem_roundRobin] at hb
  have e : last + 1 + (i - (last + 1)) = i := add_sub_cancel _ _
  rw [show (⟨(i - (last + 1)).val, (i - (last + 1)).isLt⟩ : StreamId) = i - (last + 1) from rfl, e, hi] at hb
  cases hb

/-- A stream is granted when one asks. -/
theorem firstAfter_exists {last j : StreamId} {p : StreamId → Bool} (hj : p j = true) : ∃ k, firstAfter last p = some k := by
  cases h : firstAfter last p with
  | some k => exact ⟨k, rfl⟩
  | none => rw [firstAfter_none.1 h j] at hj; cases hj

/-! ## What the engine's work on a block changes -/

theorem handOver_form (x : Stream) (e : Emit) : ∃ tk q, handOver x e = { x with taken := tk, queue := q } := by
  cases e <;> unfold handOver <;> dsimp only <;> split <;> exact ⟨_, _, rfl⟩

theorem foldl_handOver_form (es : List Emit) (x : Stream) : ∃ tk q, es.foldl handOver x = { x with taken := tk, queue := q } := by
  induction es generalizing x with
  | nil => exact ⟨_, _, rfl⟩
  | cons e es ih =>
      obtain ⟨tk, q, h⟩ := handOver_form x e
      obtain ⟨tk', q', h'⟩ := ih (handOver x e)
      exact ⟨tk', q', by rw [List.foldl_cons, h', h]⟩

theorem finishRun_form (r : Run) (x : Stream) : ∃ tk q, finishRun r x = { x with ctx := some r.ctx, taken := tk, queue := q } := by
  obtain ⟨tk, q, h⟩ := foldl_handOver_form r.emits { x with ctx := some r.ctx }
  exact ⟨tk, q, h⟩

theorem beginSpan_form (t : Taken) (x : Stream) : ∃ tk c s0 s1 sch, beginSpan t x =
    { x with taken := tk, ctx := c, slot0 := s0, slot1 := s1, schedule := sch } := by
  unfold beginSpan
  split <;> exact ⟨_, _, _, _, _, rfl⟩

/-- A block changes its stream's list, context, checkpoints, schedule and queue, and leaves the staging store. -/
theorem processBlock_form (st : Staged) (x : Stream) : ∃ tk c s0 s1 sch q, (processBlock st x).1 =
    { x with staging := none, taken := tk, ctx := c, slot0 := s0, slot1 := s1, schedule := sch, queue := q } := by
  unfold processBlock
  split
  · exact ⟨_, _, _, _, _, _, rfl⟩
  · next t _ =>
      obtain ⟨tk, c, s0, s1, sch, h1⟩ : ∃ tk c s0 s1 sch,
          (if st.block = 0 then beginSpan t { x with staging := none } else { x with staging := none }) =
            { x with staging := none, taken := tk, ctx := c, slot0 := s0, slot1 := s1, schedule := sch } := by
        split
        · exact beginSpan_form t { x with staging := none }
        · exact ⟨_, _, _, _, _, rfl⟩
      dsimp only
      rw [h1]
      split
      · next u ctx sched _ _ _ =>
          split
          · exact ⟨_, _, _, _, _, _, rfl⟩
          · next start _ =>
              obtain ⟨tk', q', h2⟩ := finishRun_form (blockRun (spanInfo u start sched) st (liveStarts
                { x with staging := none, taken := tk, ctx := c, slot0 := s0, slot1 := s1, schedule := sch }) ctx)
                { x with staging := none, taken := tk, ctx := c, slot0 := s0, slot1 := s1, schedule := sch }
              rw [h2]
              exact ⟨_, _, _, _, _, _, rfl⟩
      · exact ⟨_, _, _, _, _, _, rfl⟩

/-- A stop flush changes its stream's list, context and queue, and has been made. -/
theorem processFlush_form (x : Stream) : ∃ tk c q, processFlush x =
    { x with flushMade := true, taken := tk, ctx := c, queue := q } := by
  unfold processFlush
  split
  · next t ctx _ _ =>
    split
    · exact ⟨_, _, _, rfl⟩
    · next start _ =>
        obtain ⟨tk, q, h⟩ := finishRun_form (flushClick _ { ctx := ctx, live := liveStarts x, emits := [], laneChanges := 0 })
          { x with flushMade := true }
        exact ⟨tk, _, q, h⟩
  · exact ⟨_, _, _, rfl⟩

/-! ## The engine's grant (R171) -/

theorem exec_engineGrant_of_ready {s : State} {k : StreamId} (he : s.enable = true) (hi : s.engine = none)
    (hk : firstAfter s.engineLast (ready s) = some k) : exec .engineGrant s = .next (drain (grantEngine k s)) := by
  show execEngineGrant s = _
  rw [execEngineGrant, if_pos ⟨he, hi⟩, hk]

/-- A granted block or flush is the engine's work on the stream's record and the record of the grant. -/
theorem grantEngine_form (k : StreamId) (s : State) : ∃ (f : Stream → Stream) (e : Serving), e.stream = k ∧
    grantEngine k s = { onStream k f s with engine := some e, engineLast := k } ∧
    ((∃ st, (s.stream k).staging = some st ∧ (blockReady (s.stream k) || stoppingReady (s.stream k)) = true ∧
        f (s.stream k) = (processBlock st (s.stream k)).1 ∧ e.laneChanges = (processBlock st (s.stream k)).2) ∨
      (((s.stream k).staging = none ∨ (blockReady (s.stream k) || stoppingReady (s.stream k)) = false) ∧
        f (s.stream k) = processFlush (s.stream k) ∧ e.laneChanges = 0)) := by
  unfold grantEngine
  dsimp only
  split
  · next st hst =>
      split
      · next hr => exact ⟨fun _ => (processBlock st (s.stream k)).1, _, rfl, rfl, Or.inl ⟨st, hst, hr, rfl, rfl⟩⟩
      · next hr => exact ⟨fun _ => processFlush (s.stream k), _, rfl, rfl, Or.inr ⟨Or.inr (by simpa using hr), rfl, rfl⟩⟩
  · next hst => exact ⟨fun _ => processFlush (s.stream k), _, rfl, rfl, Or.inr ⟨Or.inl hst, rfl, rfl⟩⟩

/-! ## Who asks (R148, R150, R169, R170) -/

theorem allProcessed_iff (u : Taken) : allProcessed u = true ↔ u.processed = (u.header.count + 1023) / 1024 :=
  decide_eq_true_iff

theorem allStaged_iff (u : Taken) : (!decide (u.staged < blockCount u)) = true ↔ (u.header.count + 1023) / 1024 ≤ u.staged := by
  rw [Bool.not_eq_true', decide_eq_false_iff_not]
  exact Nat.not_lt

theorem moreToStage_iff (u : Taken) : decide (u.staged < blockCount u) = true ↔ u.staged < (u.header.count + 1023) / 1024 :=
  decide_eq_true_iff

/-- The newest begun span is the last of the list that has begun. -/
theorem newestBegun_eq_some_iff {x : Stream} {u : Taken} : newestBegun x = some u ↔
    ∃ before after, x.taken = before ++ u :: after ∧ u.start ≠ none ∧ ∀ v ∈ after, v.start = none := by
  have hb : ∀ v : Taken, hasBegun v = true ↔ v.start ≠ none := fun v => by unfold hasBegun; cases v.start <;> simp
  have e : newestBegun x = x.taken.reverse.find? hasBegun := by
    rw [newestBegun, List.getLast?_eq_head?_reverse, ← List.filter_reverse, List.head?_filter]
  rw [e, List.find?_eq_some_iff_append]
  constructor
  · rintro ⟨hu, as, bs, hl, has⟩
    refine ⟨bs.reverse, as.reverse, ?_, (hb u).1 hu, fun v hv => ?_⟩
    · rw [← List.reverse_reverse x.taken, hl]; simp
    · have := has v (List.mem_reverse.1 hv)
      by_contra hn
      rw [(hb v).2 hn] at this; cases this
  · rintro ⟨before, after, hl, hu, hafter⟩
    refine ⟨(hb u).2 hu, after.reverse, before.reverse, by rw [hl]; simp, fun v hv => ?_⟩
    have hn := hafter v (List.mem_reverse.1 hv)
    simp [hasBegun, hn]

theorem hasBegun_eq_true_iff (u : Taken) : hasBegun u = true ↔ u.start ≠ none := by
  unfold hasBegun
  cases u.start <;> simp

theorem blockReady_iff (x : Stream) : blockReady x = true ↔ x.state = .running ∧ ∃ b, x.staging = some b ∧
    (b.block ≠ 0 ∨ (x.taken.filter fun u => u.start.isSome).length < 2) := by
  unfold blockReady begunCount
  cases x.staging with
  | none => simp
  | some b =>
      have e : hasBegun = fun u : Taken => u.start.isSome := rfl
      simp [e]

theorem stoppingReady_iff (x : Stream) : stoppingReady x = true ↔ x.state = .stopping ∧ ∃ b u, x.staging = some b ∧
    findTaken x b.tid = some u ∧ u.start ≠ none := by
  unfold stoppingReady
  cases x.staging with
  | none => simp
  | some b => cases hf : findTaken x b.tid <;> simp [hasBegun_eq_true_iff, hf]

theorem flushDue_iff (x : Stream) : flushDue x = true ↔ x.state = .stopping ∧ x.flushMade = false ∧ ∃ before u after,
    x.taken = before ++ u :: after ∧ u.start ≠ none ∧ (∀ v ∈ after, v.start = none) ∧
      u.processed = (u.header.count + 1023) / 1024 ∧ u.header.last = false := by
  have hn : (match newestBegun x with | none => false | some t => allProcessed t && !t.header.last) = true ↔
      ∃ u, newestBegun x = some u ∧ u.processed = (u.header.count + 1023) / 1024 ∧ u.header.last = false := by
    cases newestBegun x <;> simp [allProcessed_iff]
  have hb : flushDue x = (x.state == .stopping && !x.flushMade &&
      (match newestBegun x with | none => false | some t => allProcessed t && !t.header.last)) := by
    unfold flushDue
    cases newestBegun x <;> rfl
  rw [hb, Bool.and_eq_true, hn]
  simp only [Bool.and_eq_true, beq_iff_eq, Bool.not_eq_true', newestBegun_eq_some_iff, and_assoc]
  constructor
  · rintro ⟨h1, h2, u, ⟨before, after, h3, h4, h5⟩, h6, h7⟩
    exact ⟨h1, h2, before, u, after, h3, h4, h5, h6, h7⟩
  · rintro ⟨h1, h2, before, u, after, h3, h4, h5, h6, h7⟩
    exact ⟨h1, h2, u, ⟨before, after, h3, h4, h5⟩, h6, h7⟩

theorem nextBlock_eq_some_iff (x : Stream) (u : Taken) : nextBlock x = some u ↔ ∃ before after, x.taken = before ++ u :: after ∧
    (∀ v ∈ before, (v.header.count + 1023) / 1024 ≤ v.staged) ∧ u.staged < (u.header.count + 1023) / 1024 := by
  unfold nextBlock
  rw [List.find?_eq_some_iff_append]
  simp only [moreToStage_iff, allStaged_iff]
  constructor
  · rintro ⟨h1, before, after, h2, h3⟩; exact ⟨before, after, h2, h3, h1⟩
  · rintro ⟨before, after, h2, h3, h1⟩; exact ⟨h1, before, after, h2, h3⟩

theorem needsLaneRead_iff (x : Stream) : needsLaneRead x = true ↔ x.staging = none ∧ ∃ u, nextBlock x = some u ∧
    (x.state = .running ∨ x.state = .stopping ∧ u.start ≠ none) := by
  unfold needsLaneRead
  cases hn : nextBlock x with
  | none => simp
  | some u => simp [hasBegun_eq_true_iff]

theorem follows_iff (st : StreamState) : follows st = true ↔ st = .running ∨ st = .awaitLink := by
  cases st <;> simp [follows]

theorem needsChainRead_iff (x : Stream) : needsChainRead x = true ↔ (x.state = .running ∨ x.state = .awaitLink) ∧
    (∀ u ∈ x.taken, u.start ≠ none) ∧ (x.chain.wait = .none ∨ x.readDue = true) ∧ x.position ≠ .none := by
  unfold needsChainRead
  simp only [Bool.and_eq_true, follows_iff, List.all_eq_true, hasBegun_eq_true_iff, Bool.or_eq_true, beq_iff_eq, bne_iff_ne,
    and_assoc]

theorem anchorLeaving_eq_false_iff (s : State) (k : StreamId) : anchorLeaving s k = false ↔
    ∀ (a tid : Nat) (i : Issued), (s.stream k).position = .anchor a → i ∈ s.issued → i.stream = k →
      i.write.tag = .finish tid true → i.write.addr ≠ a := by
  unfold anchorLeaving
  cases hp : (s.stream k).position with
  | none => simp
  | span a => simp
  | anchor a =>
      simp only [List.any_eq_false, issuedOf, List.mem_filter, decide_eq_true_eq, ChainPosition.anchor.injEq]
      constructor
      · rintro h b tid i rfl hi hk ht
        have := h i ⟨hi, hk⟩
        rw [ht] at this
        simpa using this
      · rintro h i ⟨hi, hk⟩
        cases ht : i.write.tag with
        | finish tid released =>
            cases released with
            | true => simpa using h a tid i rfl hi hk ht
            | false => simp
        | _ => simp

theorem requests_iff (s : State) (k : StreamId) : requests s k = true ↔
    needsOpenRead (s.stream k) = true ∨ needsLaneRead (s.stream k) = true ∨
      (needsChainRead (s.stream k) = true ∧ anchorLeaving s k = false) := by
  unfold requests
  simp only [Bool.or_eq_true, Bool.and_eq_true, Bool.not_eq_true', or_assoc]

/-! ## The fetch grant (R174) -/

theorem exec_fetchGrant_of_requests {s : State} {k : StreamId} (he : s.enable = true) (hf : s.fetch = none)
    (hk : firstAfter s.fetchLast (requests s) = some k) : exec .fetchGrant s = .next (drain (grantFetch k s)) := by
  show execFetchGrant s = _
  rw [execFetchGrant, if_pos ⟨he, hf⟩, hk]

/-- What a piece of work keeps of its stream while it only moves along the chain: what the stream holds, its list and its tag. -/
def KeepsHoldings (x y : Stream) : Prop :=
  SameHoldings x y ∧ y.taken = x.taken ∧ y.tag = x.tag

theorem KeepsHoldings.refl (x : Stream) : KeepsHoldings x x := ⟨⟨rfl, rfl, rfl, rfl, rfl, rfl, rfl⟩, rfl, rfl⟩

theorem KeepsHoldings.trans {x y z : Stream} (h : KeepsHoldings x y) (g : KeepsHoldings y z) : KeepsHoldings x z := by
  obtain ⟨⟨h1, h2, h3, h4, h5, h6, h7⟩, h8, h9⟩ := h
  obtain ⟨⟨g1, g2, g3, g4, g5, g6, g7⟩, g8, g9⟩ := g
  exact ⟨⟨g1.trans h1, g2.trans h2, g3.trans h3, g4.trans h4, g5.trans h5, g6.trans h6, g7.trans h7⟩, g8.trans h8, g9.trans h9⟩

theorem KeepsHoldings.of_apart {x y z : Stream} (h : KeepsHoldings x y) (e : z.apart = y.apart) : KeepsHoldings x z :=
  h.trans ⟨sameHoldings_of_apart e, Stream.taken_of_apart e, Stream.tag_of_apart e⟩

/-- A change of the wait, the position and the like. -/
theorem keepsHoldings_handRecord (k : StreamId) (x : Stream) : KeepsHoldings x (handRecord k x) := by
  refine ⟨⟨?_, ?_, ?_, ?_, ?_, ?_, ?_⟩, ?_, ?_⟩ <;> simp

theorem keepsHoldings_takeFailed (k : StreamId) (h : Halt) (x : Stream) : KeepsHoldings x (takeFailed k h x) := by
  unfold takeFailed
  split
  · refine KeepsHoldings.trans (y := { endWait { x with
        failing := some { addr := h.addr, code := h.code }, halt := some h, skip := none, staging := none } with state := .halting })
      ⟨⟨rfl, rfl, rfl, rfl, rfl, rfl, rfl⟩, rfl, rfl⟩ (keepsHoldings_handRecord k _)
  · exact .refl x

theorem failTake_stream (k : StreamId) (addr : Nat) (echo : Seq) (code : Completion) (s : State) :
    (failTake k addr echo code s).stream k = takeFailed k (takeHalt addr code echo (s.stream k)) (s.stream k) := by
  rw [failTake_eq, State.stream_setStream_self]

theorem failTake_fetch (k : StreamId) (addr : Nat) (echo : Seq) (code : Completion) (s : State) :
    (failTake k addr echo code s).fetch = none := by
  rw [failTake_eq, State.setStream_fetch, endFetch_fetch]

theorem beginTake_stream_of_aligned {k : StreamId} {a : Nat} {s : State} (h : a % 64 = 0) :
    (beginTake k a s).stream k = endWait { s.stream k with position := .span a } := by
  rw [beginTake_of_aligned k a s h]
  exact onStream_self k (fun x => endWait { x with position := .span a }) s

theorem beginTake_fetch_of_aligned {k : StreamId} {a : Nat} {s : State} (h : a % 64 = 0) :
    (beginTake k a s).fetch = some { stream := k, phase := .header a } := by
  rw [beginTake_of_aligned k a s h]

theorem beginTake_stream_of_misaligned {k : StreamId} {a : Nat} {s : State} (h : a % 64 ≠ 0) :
    (beginTake k a s).stream k = takeFailed k (takeHalt a .descInvalid 0 (s.stream k)) (endWait { s.stream k with position := .span a }) := by
  rw [beginTake_of_misaligned k a s h, failTake_stream, onStream_self]
  rfl

theorem beginTake_fetch_of_misaligned {k : StreamId} {a : Nat} {s : State} (h : a % 64 ≠ 0) : (beginTake k a s).fetch = none := by
  rw [beginTake_of_misaligned k a s h, failTake_fetch]

theorem beginTake_keeps (k : StreamId) (a : Nat) (s : State) : KeepsHoldings (s.stream k) ((beginTake k a s).stream k) := by
  have h : KeepsHoldings (s.stream k) (endWait { s.stream k with position := .span a }) :=
    ⟨⟨rfl, rfl, rfl, rfl, rfl, rfl, rfl⟩, rfl, rfl⟩
  by_cases ha : a % 64 = 0
  · rw [beginTake_stream_of_aligned ha]; exact h
  · rw [beginTake_stream_of_misaligned ha]; exact h.trans (keepsHoldings_takeFailed k _ _)

/-- A take at a misaligned address halts its stream at that address (R144). -/
theorem beginTake_halts {k : StreamId} {a : Nat} {s : State} (ha : a % 64 ≠ 0) (hr : recordsFailure (s.stream k).state = true) :
    HaltsWith (takeHalt a .descInvalid 0 (s.stream k)) { s.stream k with position := .span a }
      ((drain (beginTake k a s)).stream k) := by
  have h : HaltsWith (takeHalt a .descInvalid 0 (s.stream k)) (endWait { s.stream k with position := .span a })
      (takeFailed k (takeHalt a .descInvalid 0 (s.stream k)) (endWait { s.stream k with position := .span a })) := takeFailed_halts hr
  refine HaltsWith.of_apart ?_ (drain_apart k _)
  rw [beginTake_stream_of_misaligned ha]
  exact h

theorem recordsFailure_of_follows {st : StreamState} (h : st = .running ∨ st = .awaitLink) : recordsFailure st = true := by
  rcases h with rfl | rfl <;> rfl

theorem bypassOf_eq_none {c : Chain} {a : Nat} (h : ∀ b ∈ c.bypass, b.preceding ≠ a) : bypassOf c a = none :=
  List.find?_eq_none.2 fun b hb => by simp [h b hb]

theorem followLink_of_none {k : StreamId} {anchor link : Nat} {s : State} (h : bypassOf (s.stream k).chain anchor = none) :
    followLink k anchor link s = beginTake k link s := by
  unfold followLink
  rw [h]

theorem followLink_of_skipped {k : StreamId} {anchor : Nat} {b : Bypass} {s : State}
    (h : bypassOf (s.stream k).chain anchor = some b) : followLink k anchor b.skipped s = beginTake k b.link
      (onStream k (fun x => { x with chain := { x.chain with expected := some (b.sequence + 1) } }) s) := by
  unfold followLink
  rw [h]
  exact if_pos rfl

theorem followLink_of_other {k : StreamId} {anchor link : Nat} {b : Bypass} {s : State}
    (h : bypassOf (s.stream k).chain anchor = some b) (hne : b.skipped ≠ link) : followLink k anchor link s =
      beginTake k link (onStream k (fun x => { x with chain := dropBypass anchor x.chain }) s) := by
  unfold followLink
  rw [h]
  exact if_neg hne

theorem followLink_keeps (k : StreamId) (anchor link : Nat) (s : State) :
    KeepsHoldings (s.stream k) ((followLink k anchor link s).stream k) := by
  have hc : ∀ c : Chain, KeepsHoldings (s.stream k) { s.stream k with chain := c } := fun c =>
    ⟨⟨rfl, rfl, rfl, rfl, rfl, rfl, rfl⟩, rfl, rfl⟩
  cases hb : bypassOf (s.stream k).chain anchor with
  | none => rw [followLink_of_none hb]; exact beginTake_keeps k link s
  | some b =>
      by_cases hl : b.skipped = link
      · subst hl
        rw [followLink_of_skipped hb]
        refine KeepsHoldings.trans ?_ (beginTake_keeps k b.link _)
        rw [onStream_self]; exact hc _
      · rw [followLink_of_other hb hl]
        refine KeepsHoldings.trans ?_ (beginTake_keeps k link _)
        rw [onStream_self]; exact hc _

theorem startWaitRead_stream (k : StreamId) (target : WaitTarget) (a : Nat) (s : State) :
    (startWaitRead k target a s).stream k = { s.stream k with
      chain := { (s.stream k).chain with wait := target }, timer := none, readDue := false, pollAgain := false } :=
  onStream_self k (fun x => { x with
    chain := { x.chain with wait := target }, timer := none, readDue := false, pollAgain := false }) s

theorem works_startWaitRead {n : Loudness} (k : StreamId) (target : WaitTarget) (a : Nat) (s : State) :
    Works n k s (startWaitRead k target a s) :=
  Works.fetch _ (Works.stream _ .refl)

theorem works_grantLane {n : Loudness} (k : StreamId) (s : State) : Works n k s (grantLane k s) := by
  unfold grantLane
  split
  · exact .fetch _ .refl
  · exact .refl

theorem works_grantChain {n : Loudness} (k : StreamId) (s : State) : Works n k s (grantChain k s) := by
  unfold grantChain
  dsimp only
  split
  · exact .refl
  · split
    · exact works_beginTake k s _
    · exact works_startWaitRead ..
  · split
    · exact works_followLink k s _ _
    · exact works_startWaitRead ..

theorem works_failOpenTable (k : StreamId) (s : State) : Works .faults k s (failOpenTable k s) :=
  (((works_endFetch k s).stream _).fault _ rfl).signal _ (by simp)

theorem works_grantOpen (k : StreamId) (s : State) : Works .faults k s (grantOpen k s) := by
  unfold grantOpen
  dsimp only
  split
  · exact (Works.stream _ .refl).trans (works_failOpenTable k _)
  · exact (Works.stream _ .refl).fetch _

theorem grantFetch_cases (k : StreamId) (s : State) :
    (needsOpenRead (s.stream k) = true ∧ grantFetch k s = grantOpen k { s with fetchLast := k }) ∨
    (needsOpenRead (s.stream k) = false ∧ needsLaneRead (s.stream k) = true ∧
      grantFetch k s = grantLane k { s with fetchLast := k }) ∨
    (needsOpenRead (s.stream k) = false ∧ needsLaneRead (s.stream k) = false ∧
      grantFetch k s = grantChain k { s with fetchLast := k }) := by
  unfold grantFetch
  dsimp only
  cases needsOpenRead (s.stream k) <;> cases needsLaneRead (s.stream k) <;> simp

theorem works_grantFetch (k : StreamId) (s : State) : Works .faults k { s with fetchLast := k } (grantFetch k s) := by
  rcases grantFetch_cases k s with ⟨_, e⟩ | ⟨_, _, e⟩ | ⟨_, _, e⟩ <;> rw [e]
  · exact works_grantOpen k _
  · exact works_grantLane k _
  · exact works_grantChain k _

theorem grantChain_keeps (k : StreamId) (s : State) : KeepsHoldings (s.stream k) ((grantChain k s).stream k) := by
  have hw : ∀ target a, KeepsHoldings (s.stream k) ((startWaitRead k target a s).stream k) := fun target a => by
    rw [startWaitRead_stream]; exact ⟨⟨rfl, rfl, rfl, rfl, rfl, rfl, rfl⟩, rfl, rfl⟩
  unfold grantChain
  dsimp only
  split
  · exact .refl _
  · split
    · exact beginTake_keeps ..
    · exact hw _ _
  · split
    · exact followLink_keeps ..
    · exact hw _ _

theorem failOpenTable_stream (k : StreamId) (s : State) : (failOpenTable k s).stream k = { s.stream k with state := .closed } := by
  rw [failOpenTable, signal_stream, setFault_stream, onStream_self, endFetch_stream]

theorem grantOpen_keeps (k : StreamId) (s : State) : KeepsHoldings (s.stream k) ((grantOpen k s).stream k) := by
  unfold grantOpen
  dsimp only
  split
  · rw [failOpenTable_stream, onStream_self]; exact ⟨⟨rfl, rfl, rfl, rfl, rfl, rfl, rfl⟩, rfl, rfl⟩
  · refine KeepsHoldings.trans (y := { s.stream k with openDue := false }) ⟨⟨rfl, rfl, rfl, rfl, rfl, rfl, rfl⟩, rfl, rfl⟩ ?_
    have e : (({ onStream k (fun x => { x with openDue := false }) s with
        fetch := some { stream := k, phase := .entry (tableBase s + 64 * k.val) } } : State).stream k) =
        { s.stream k with openDue := false } := onStream_self k (fun x => { x with openDue := false }) s
    rw [e]; exact .refl _

theorem grantLane_stream (k : StreamId) (s : State) : (grantLane k s).stream k = s.stream k := by
  unfold grantLane
  split <;> rfl

theorem grantFetch_keeps (k : StreamId) (s : State) : KeepsHoldings (s.stream k) ((grantFetch k s).stream k) := by
  rcases grantFetch_cases k s with ⟨_, e⟩ | ⟨_, _, e⟩ | ⟨_, _, e⟩ <;> rw [e]
  · exact grantOpen_keeps k { s with fetchLast := k }
  · rw [grantLane_stream]; exact .refl _
  · exact grantChain_keeps k { s with fetchLast := k }

/-- Settles O22: `firstAfter_least` for the order; what is kept is read off the forms of a grant's work; who asks off the
definitions of readiness and of a request. -/
theorem arbitersGrantRoundRobin : Obligations.ArbitersGrantRoundRobin := by
  unfold Obligations.ArbitersGrantRoundRobin
  refine ⟨fun s he => ⟨fun hf j hj => ?fetch, fun h => ?nofetch⟩, fun s he => ⟨fun hi j hj => ?engine, fun h => ?noengine⟩,
    fun s k => ?ready, fun s k => ?requests⟩
  case fetch =>
    obtain ⟨k, hk⟩ := firstAfter_exists (last := s.fetchLast) hj
    have hw := works_grantFetch k s
    have ha : SameAround s (drain (grantFetch k s)) := hw.around ⟨⟨rfl, rfl, rfl, rfl⟩, ⟨rfl, rfl, rfl⟩, rfl, rfl, rfl⟩
    obtain ⟨hh, ht, htag⟩ := (grantFetch_keeps k s).of_apart (drain_apart k _)
    exact ⟨k, _, exec_fetchGrant_of_requests he hf hk, firstAfter_some hk, (drain_fetchLast _).trans hw.fetchLast,
      firstAfter_least hk, hh, ht, htag, hw.others rfl, ha.control,
      (drain_cmd _).trans hw.cmd, (drain_engine _).trans hw.engine⟩
  case nofetch =>
    show execFetchGrant s = _
    unfold execFetchGrant
    rcases h with h | h
    · rw [if_neg (by simp [h])]
    · rw [firstAfter_none.2 h]; split <;> rfl
  case engine =>
    obtain ⟨k, hk⟩ := firstAfter_exists (last := s.engineLast) hj
    obtain ⟨f, e, hes, hform, hcases⟩ := grantEngine_form k s
    have hst : (grantEngine k s).stream k = f (s.stream k) := by rw [hform]; exact onStream_self k f s
    have hw : Works .silent k { s with engine := some e, engineLast := k } (grantEngine k s) := by
      rw [hform]; exact Works.stream (s := { s with engine := some e, engineLast := k }) f .refl
    have hkept : (f (s.stream k)).state = (s.stream k).state ∧ (f (s.stream k)).tag = (s.stream k).tag ∧
        (f (s.stream k)).chain = (s.stream k).chain ∧ (f (s.stream k)).position = (s.stream k).position ∧
        (f (s.stream k)).counters = (s.stream k).counters ∧ (f (s.stream k)).failing = (s.stream k).failing := by
      rcases hcases with ⟨st, _, _, hfx, _⟩ | ⟨_, hfx, _⟩
      · obtain ⟨tk, c, s0, s1, sch, q, hp⟩ := processBlock_form st (s.stream k)
        rw [hfx, hp]; exact ⟨rfl, rfl, rfl, rfl, rfl, rfl⟩
      · obtain ⟨tk, c, q, hp⟩ := processFlush_form (s.stream k)
        rw [hfx, hp]; exact ⟨rfl, rfl, rfl, rfl, rfl, rfl⟩
    obtain ⟨h1, h2, h3, h4, h5, h6⟩ := hkept
    refine ⟨k, _, e, exec_engineGrant_of_ready he hi hk, firstAfter_some hk, ?_, ?_, hes, firstAfter_least hk, fun hs hr => ?_,
      fun hb hp => ?_, ?_, ?_, ?_, ?_, ?_, ?_, hw.others rfl, ?_, ?_, hw.events ⟨rfl, rfl, rfl⟩, (drain_cmd _).trans hw.cmd, ?_⟩
    · rw [drain_engineLast, hform]
    · rw [drain_engine, hform]
    · rw [drain_stream_staging, hst]
      rcases hcases with ⟨st, _, _, hfx, _⟩ | ⟨hn, _⟩
      · obtain ⟨tk, c, s0, s1, sch, q, hp⟩ := processBlock_form st (s.stream k)
        rw [hfx, hp]
      · rcases hn with hn | hn
        · exact absurd hn hs
        · rw [Bool.or_eq_false_iff] at hn
          rcases hr with hr | hr
          · rw [hn.1] at hr; cases hr
          · rw [hn.2] at hr; cases hr
    · rw [drain_stream_flushMade, hst]
      rcases hcases with ⟨st, _, hr, _⟩ | ⟨_, hfx, _⟩
      · rw [hb, hp] at hr; cases hr
      · obtain ⟨tk, c, q, hform'⟩ := processFlush_form (s.stream k)
        rw [hfx, hform']
    · rw [drain_stream_state, hst, h1]
    · rw [drain_stream_tag, hst, h2]
    · rw [drain_stream_chain, hst, h3]
    · rw [drain_stream_position, hst, h4]
    · rw [drain_stream_counters, hst, h5]
    · rw [drain_stream_failing, hst, h6]
    · exact SameControl.trans (t := grantEngine k s) (by rw [hform]; exact ⟨rfl, rfl, rfl, rfl⟩) (sameControl_drain _)
    · exact hw.status (by simp) ⟨rfl, rfl⟩
    · rw [drain_fetch, hform]; rfl
  case noengine =>
    show execEngineGrant s = _
    unfold execEngineGrant
    rcases h with h | h
    · rw [if_neg (by simp [h])]
    · rw [firstAfter_none.2 h]; split <;> rfl
  case ready =>
    unfold ready
    simp only [Bool.or_eq_true, blockReady_iff, stoppingReady_iff, flushDue_iff, or_assoc]
  case requests =>
    rw [requests_iff, needsLaneRead_iff, needsChainRead_iff, anchorLeaving_eq_false_iff, needsOpenRead, Bool.and_eq_true, beq_iff_eq]
    simp only [nextBlock_eq_some_iff]
    refine or_congr Iff.rfl (or_congr ?_ ?_)
    · constructor
      · rintro ⟨h1, u, ⟨before, after, h2, h3, h4⟩, h5⟩
        exact ⟨h1, before, u, after, h2, h3, h4, h5⟩
      · rintro ⟨h1, before, u, after, h2, h3, h4, h5⟩
        exact ⟨h1, u, ⟨before, after, h2, h3, h4⟩, h5⟩
    · constructor
      · rintro ⟨⟨h1, h2, h3, h4⟩, h5⟩; exact ⟨h1, h2, h4, h3, h5⟩
      · rintro ⟨h1, h2, h4, h3, h5⟩; exact ⟨⟨h1, h2, h3, h4⟩, h5⟩

end Sys2Proof.Machine
end

section
/-! PROOFS. What a fetch grant starts, the lane reads, and how a take goes on after its reads (R144 to R149, R169). -/

namespace Sys2Proof.Machine

/-! ## Grants (R118, R144, R148, R149) -/

theorem grantOpen_of_zero {k : StreamId} {s : State} (h : tableBase s = 0) :
    grantOpen k s = failOpenTable k (onStream k (fun x => { x with openDue := false }) s) :=
  if_pos h

theorem grantOpen_of_ne {k : StreamId} {s : State} (h : tableBase s ≠ 0) :
    grantOpen k s = { onStream k (fun x => { x with openDue := false }) s with
      fetch := some { stream := k, phase := .entry (tableBase s + 64 * k.val) } } :=
  if_neg h

theorem failOpenTable_fetch (k : StreamId) (s : State) : (failOpenTable k s).fetch = none := by
  rw [failOpenTable, signal_fetch, setFault_fetch]; rfl

theorem failOpenTable_faults (k : StreamId) (s : State) : (failOpenTable k s).faults = s.faults ||| 0b0001#4 := by
  rw [failOpenTable, signal_faults, setFault_faults]; rfl

theorem toNat_streamBits (k : StreamId) : (streamBits k).toNat = k.val := by
  unfold streamBits
  rw [BitVec.toNat_ofNat]
  omega

theorem failOpenTable_lastFault (k : StreamId) (s : State) : (failOpenTable k s).lastFault = streamBits k := by
  rw [failOpenTable, signal_lastFault, setFault_lastFault]

theorem latched_failOpenTable (k : StreamId) (s : State) :
    latched (failOpenTable k s).evlatch .attention = true ∧ latched (failOpenTable k s).evlatch .deviceFault = true := by
  rw [failOpenTable, latched_signal, latched_signal, latched_setFault]
  simp

theorem grantChain_take {k : StreamId} {a : Nat} {s : State} (hp : (s.stream k).position = .span a)
    (hw : (s.stream k).chain.wait = .none) : grantChain k s = beginTake k a s := by
  unfold grantChain
  dsimp only
  rw [hp]
  exact if_pos hw

theorem grantChain_stateWait {k : StreamId} {a : Nat} {s : State} (hp : (s.stream k).position = .span a)
    (hw : (s.stream k).chain.wait ≠ .none) : grantChain k s = startWaitRead k .state a s := by
  unfold grantChain
  dsimp only
  rw [hp]
  exact if_neg hw

theorem grantChain_follow {k : StreamId} {a : Nat} {s : State} (hp : (s.stream k).position = .anchor a)
    (hw : (s.stream k).chain.wait = .none) (hl : anchorLink (s.stream k) ≠ 0) :
    grantChain k s = followLink k a (anchorLink (s.stream k)) s := by
  unfold grantChain
  dsimp only
  rw [hp]
  exact if_pos ⟨hw, hl⟩

theorem grantChain_linkWait {k : StreamId} {a : Nat} {s : State} (hp : (s.stream k).position = .anchor a)
    (hw : (s.stream k).chain.wait ≠ .none ∨ anchorLink (s.stream k) = 0) : grantChain k s = startWaitRead k .link a s := by
  unfold grantChain
  dsimp only
  rw [hp]
  exact if_neg fun h => hw.elim (fun e => e h.1) h.2

/-- A halt at the position that the stream has. -/
theorem HaltsWith.of_position {h : Halt} {x y : Stream} {p : ChainPosition} (hp : x.position = p)
    (hy : HaltsWith h { x with position := p } y) : HaltsWith h x y := by
  subst hp; exact hy

/-- The end of a wait that the stream was not in. -/
theorem endWait_apart_of_not_waiting {x : Stream} (hw : x.chain.wait = .none) :
    (endWait x).apart = { x.apart with timer := none, readDue := false, pollAgain := false } := by
  have hc : ({ x.chain with wait := .none } : Chain) = x.chain := by rw [← hw]
  unfold endWait Stream.apart
  rw [hc]

theorem setPosition_own {x : Stream} {p : ChainPosition} (hp : x.position = p) : ({ x with position := p } : Stream) = x := by
  rw [← hp]

theorem phaseReads_wait_state (a : Nat) (b : Bool) :
    phaseReads (.wait .state a b false) = [{ addr := a, len := if b = true then 128 else 4 }] := by
  cases b <;> rfl

theorem phaseReads_wait_link (a : Nat) (b : Bool) : phaseReads (.wait .link a b false) =
    if b = true then [{ addr := a, len := 128 }] else [{ addr := a + 0x50, len := 8 }] := by
  cases b <;> rfl

/-- Settles O23: by what is granted, each with the equation of its grant. -/
theorem fetchGrantStartsReads : Obligations.FetchGrantStartsReads := by
  unfold Obligations.FetchGrantStartsReads
  intro s k he hf hk
  refine ⟨_, exec_fetchGrant_of_requests he hf hk, fun ho => ?opens, fun ho hl => ?lane, fun ho hl => ?chain⟩
  case opens =>
    have hg : grantFetch k s = grantOpen k { s with fetchLast := k } := if_pos ho
    simp only [needsOpenRead, Bool.and_eq_true, beq_iff_eq] at ho
    refine ⟨ho.1, fun hb => ?_, fun hb => ?_⟩ <;> rw [hg]
    · rw [grantOpen_of_ne (s := { s with fetchLast := k }) hb]
      refine ⟨by rw [drain_fetch]; rfl, rfl, ?_⟩
      rw [drain_apart]
      exact congrArg Stream.apart (onStream_self k (fun x => { x with openDue := false }) { s with fetchLast := k })
    · rw [grantOpen_of_zero (s := { s with fetchLast := k }) hb]
      obtain ⟨ha, hd⟩ := latched_failOpenTable k (onStream k (fun x => { x with openDue := false }) { s with fetchLast := k })
      refine ⟨by rw [drain_fetch, failOpenTable_fetch], ?_, by rw [drain_faults, failOpenTable_faults]; rfl,
        by rw [drain_lastFault, failOpenTable_lastFault, toNat_streamBits], by rw [drain_evlatch]; exact ha,
        by rw [drain_evlatch]; exact hd⟩
      rw [drain_apart, failOpenTable_stream, onStream_self]; rfl
  case lane =>
    have hg : grantFetch k s = grantLane k { s with fetchLast := k } := by
      rw [grantFetch, if_neg (by simp [ho]), if_pos hl]
    obtain ⟨hs, u, hu, hst⟩ := (needsLaneRead_iff _).1 hl
    refine ⟨hs, u, hu, hst, fun ctx hc => ?_⟩
    rw [hg]
    refine ⟨by rw [drain_apart, grantLane_stream]; rfl, _, _, ?_, rfl, rfl, rfl⟩
    rw [drain_fetch, grantLane]
    simp only [show ({ s with fetchLast := k } : State).stream k = s.stream k from rfl, hu, hc]
    rfl
  case chain =>
    obtain ⟨u, hg, hu⟩ : ∃ u : State, grantFetch k s = grantChain k u ∧ u.stream k = s.stream k :=
      ⟨{ s with fetchLast := k }, by rw [grantFetch, if_neg (by simp [ho]), if_neg (by simp [hl])], rfl⟩
    have hr := (requests_iff s k).1 (firstAfter_some hk)
    rw [ho, hl] at hr
    obtain ⟨hst, hbegun, -, -⟩ := (needsChainRead_iff _).1 ((hr.resolve_left (by simp)).resolve_left (by simp)).1
    have hrec := recordsFailure_of_follows hst
    rw [hg]
    rw [← hu] at hst hbegun hrec ⊢
    refine ⟨hst, hbegun, fun a hp hw => ⟨fun ha => ?_, fun ha => ?_⟩, fun a hp hw => ?_, fun a hp hw => ?_,
      fun a hp hw hb hl => ⟨fun ha => ?_, fun ha => ?_⟩⟩
    · rw [grantChain_take hp hw]
      refine ⟨by rw [drain_fetch, beginTake_fetch_of_aligned ha], rfl, ?_⟩
      rw [drain_apart, beginTake_stream_of_aligned ha, setPosition_own hp]
      exact endWait_apart_of_not_waiting hw
    · rw [grantChain_take hp hw]
      exact ⟨by rw [drain_fetch, beginTake_fetch_of_misaligned ha], (beginTake_halts ha hrec).of_position hp⟩
    · rw [grantChain_stateWait hp hw]
      refine ⟨_, by rw [drain_fetch]; rfl, rfl, ?_, ?_⟩
      · rw [phaseReads_wait_state]; simp
      · rw [drain_apart, startWaitRead_stream]; rfl
    · rw [grantChain_linkWait hp hw]
      refine ⟨_, by rw [drain_fetch]; rfl, rfl, ?_, ?_⟩
      · rw [phaseReads_wait_link]; simp
      · rw [drain_apart, startWaitRead_stream]; rfl
    · rw [grantChain_follow hp hw hl, followLink_of_none (bypassOf_eq_none hb)]
      refine ⟨by rw [drain_fetch, beginTake_fetch_of_aligned ha], ?_⟩
      rw [drain_apart, beginTake_stream_of_aligned ha]
      exact endWait_apart_of_not_waiting (x := { u.stream k with position := .span (anchorLink (u.stream k)) }) hw
    · rw [grantChain_follow hp hw hl, followLink_of_none (bypassOf_eq_none hb)]
      exact ⟨by rw [drain_fetch, beginTake_fetch_of_misaligned ha], beginTake_halts ha hrec⟩

end Sys2Proof.Machine
end

section
/-! PROOFS. The reads of lanes, headers, marks and profiles (R6, R144 to R149, R169). -/

namespace Sys2Proof.Machine

/-! ## The frame of silent work -/

/-- Silent work and a drain keep every other stream, DEVSTAT, the events and what stands around the streams. -/
theorem Works.silent_frame {k : StreamId} {s v : State} (w : Works .silent k s v) : OthersKept k s (drain v) ∧
    SameStatus s (drain v) ∧ SameEvents s (drain v) ∧ SameAround s (drain v) ∧ (drain v).cmd = s.cmd :=
  ⟨w.others rfl, w.status (by simp) ⟨rfl, rfl⟩, w.events ⟨rfl, rfl, rfl⟩, w.around (sameAround_refl s), (drain_cmd v).trans w.cmd⟩

/-- Work that may signal causes and a drain keep every other stream, DEVSTAT and what stands around the streams. -/
theorem Works.signals_frame {k : StreamId} {s v : State} (w : Works .signals k s v) : OthersKept k s (drain v) ∧
    SameStatus s (drain v) ∧ SameAround s (drain v) ∧ (drain v).cmd = s.cmd :=
  ⟨w.others rfl, w.status (by simp) ⟨rfl, rfl⟩, w.around (sameAround_refl s), (drain_cmd v).trans w.cmd⟩

/-- The later of two changes of one stream stands. -/
theorem setStream_setStream (k : StreamId) (x y : Stream) (s : State) : (s.setStream k x).setStream k y = s.setStream k y := by
  unfold State.setStream
  congr 1
  exact Vector.set_set ..

/-! ## Entries to AWAIT_LINK (R121) -/

theorem enterState_form (k : StreamId) (st : StreamState) (x : Stream) : ∃ q o, enterState k st x =
    { x with state := st, queue := q, owed := o } :=
  ⟨_, _, handRecord_eq k { x with state := st }⟩

/-- The check for AWAIT_LINK changes the stream's state, with its record, and nothing else of it. -/
theorem awaitIfVoted_form (k : StreamId) (s : State) : ∃ q o, (awaitIfVoted k s).stream k = { s.stream k with
    state := if (s.stream k).state = .running ∧ serving s k = false ∧ allVoted (s.stream k) = true then .awaitLink
      else (s.stream k).state
    queue := q, owed := o } := by
  by_cases h : (s.stream k).state = .running ∧ serving s k = false ∧ allVoted (s.stream k) = true
  · obtain ⟨q, o, e⟩ := enterState_form k .awaitLink (s.stream k)
    exact ⟨q, o, by rw [awaitIfVoted, if_pos h, onStream_self, e, if_pos h]⟩
  · exact ⟨_, _, by rw [awaitIfVoted, if_neg h, if_neg h]⟩

theorem awaitIfVoted_fetch (k : StreamId) (s : State) : (awaitIfVoted k s).fetch = s.fetch := by
  rcases awaitIfVoted_cases k s with e | ⟨_, _, _, e⟩ <;> rw [e]
  rfl

/-! ## LANE_READ_DONE (R6, R169) -/

/-- The bytes that the reads of a block bring, a failed read of a lane bringing none. -/
def laneBytes (reads : List ReadReq) (lanes : List ReadResult) : List ReadResult :=
  List.zipWith (fun (q : ReadReq) r => validData q.len r) reads lanes

theorem exec_laneReadDone {s : State} {k : StreamId} {tid block count : Nat} {reads : List ReadReq} {lanes : List ReadResult}
    (hf : s.fetch = some { stream := k, phase := .lane tid block count reads }) (hl : lanes.length = reads.length) :
    exec (.laneReadDone lanes) s = .next (drain (settleStop k (onStream k
      (stageBlock { tid := tid, block := block, count := count, lanes := laneBytes reads lanes }) (endFetch s)))) := by
  show execLaneReadDone lanes s = _
  rw [execLaneReadDone, hf]
  exact if_pos hl

theorem stageable_iff (x : Stream) (tid : Nat) : stageable x tid = true ↔ ∃ u, findTaken x tid = some u ∧
    (x.state = .running ∨ x.state = .stopping ∧ u.start ≠ none) := by
  unfold stageable
  cases hf : findTaken x tid <;> simp [hasBegun_eq_true_iff]

/-- A block that enters the staging store (R169). -/
def staged (st : Staged) (x : Stream) : Stream :=
  { x with
    staging := some st
    taken := x.taken.map fun (v : Taken) => if v.tid = st.tid then { v with staged := v.staged + 1 } else v }

theorem stageBlock_of_stageable {st : Staged} {x : Stream} (h : stageable x st.tid = true) : stageBlock st x = staged st x :=
  if_pos h

theorem stageBlock_of_not_stageable {st : Staged} {x : Stream} (h : stageable x st.tid = false) : stageBlock st x = x :=
  if_neg (by simp [h])

theorem findTaken_map {x y : Stream} {f : Taken → Taken} (hf : ∀ v, (f v).tid = v.tid) (hy : y.taken = x.taken.map f) (tid : Nat) :
    findTaken y tid = (findTaken x tid).map f := by
  unfold findTaken
  rw [hy, List.find?_map]
  congr 2
  funext v
  simp [hf]

/-- Giving back keeps a staged block whose span has begun (R169). -/
theorem giveBackUnbegun_staging (x : Stream) :
    (stagedUnbegun x = false → (giveBackUnbegun x).staging = x.staging) ∧
      ((giveBackUnbegun x).staging = x.staging ∨ (giveBackUnbegun x).staging = none) := by
  cases h : x.taken.filter (fun v => decide (v.start = none) && !v.givingBack) with
  | nil =>
      unfold giveBackUnbegun
      rw [filter_unbegun_eq, h]
      exact ⟨fun _ => rfl, Or.inl rfl⟩
  | cons u rest =>
      rw [giveBackUnbegun_of_some h]
      cases stagedUnbegun x <;> simp

theorem settleStop_cases_stream (k : StreamId) (s : State) (hne : (s.stream k).taken ≠ []) :
    (settleStop k s).stream k = s.stream k ∨
      ((s.stream k).state = .stopping ∧ (settleStop k s).stream k = giveBackUnbegun (s.stream k)) := by
  rcases settleStop_cases k s with e | ⟨h1, _, _, ⟨h2, _⟩ | ⟨_, e⟩⟩
  · exact Or.inl (by rw [e])
  · exact absurd h2 hne
  · exact Or.inr ⟨h1, by rw [e, onStream_self]⟩

theorem taken_ne_nil_of_findTaken {x : Stream} {tid : Nat} {u : Taken} (h : findTaken x tid = some u) : x.taken ≠ [] := by
  intro e
  rw [findTaken, e] at h
  cases h

theorem map_allGivenBack {α : Type} (f : Taken → α) (hf : ∀ u : Taken, f { u with givingBack := true } = f u) (ts : List Taken) :
    (allGivenBack ts).map f = ts.map f := by
  unfold allGivenBack
  rw [List.map_map]
  refine List.map_congr_left fun u _ => ?_
  show f (if _ then _ else _) = _
  split
  · exact hf u
  · rfl

theorem givingBack_of_mem_allGivenBack {ts : List Taken} {v : Taken} (hv : v ∈ allGivenBack ts) (hs : v.start = none) :
    v.givingBack = true := by
  obtain ⟨u, _, rfl⟩ := List.mem_map.1 hv
  by_cases h : u.start = none
  · rw [if_pos h]
  · rw [if_neg h] at hs
    exact absurd hs h

/-- Settles O24: `stageBlock` on the stream, and `stopWorkFollows` for the rest. -/
theorem laneReadStagesBlock : Obligations.LaneReadStagesBlock := by
  unfold Obligations.LaneReadStagesBlock
  intro s k tid block count reads lanes hf hl
  obtain ⟨data, hdata⟩ : ∃ data, data = laneBytes reads lanes := ⟨_, rfl⟩
  have hexec := exec_laneReadDone hf hl
  rw [← hdata] at hexec
  obtain ⟨m, hm⟩ : ∃ m, m = onStream k (stageBlock { tid := tid, block := block, count := count, lanes := data }) (endFetch s) :=
    ⟨_, rfl⟩
  rw [← hm] at hexec
  have hmk : m.stream k = stageBlock { tid := tid, block := block, count := count, lanes := data } (s.stream k) := by
    rw [hm, onStream_self, endFetch_stream]
  have hmf : m.fetch = none := by rw [hm]; rfl
  have hw : Works .signals k s (settleStop k m) := by
    rw [hm]
    exact ((works_endFetch k s).stream _).trans (works_settleStop k _ (by simp))
  obtain ⟨hother, hstatus, haround, hcmd⟩ := hw.signals_frame
  have hstop : ∀ z, z = m.stream k → StopWorkFollows k ({ s with fetch := none }.setStream k z) (drain (settleStop k m)) := by
    rintro z rfl
    refine stopWorkFollows (by rw [fetching, hmf]) (State.stream_setStream_self ..).symm ?_ ?_ ?_
    · rw [hm]; rfl
    · rw [hm]; exact ⟨rfl, rfl, rfl⟩
    · rw [hm]; exact ⟨rfl, rfl, rfl⟩
  have hidle : stageable (s.stream k) tid = false → m.stream k = s.stream k := fun h => by
    rw [hmk, stageBlock_of_not_stageable h]
  refine ⟨_, hexec, by rw [drain_fetch, settleStop_fetch, hmf], hother, haround.control, hstatus, hcmd, fun u hu hx => ?_, fun hn => ?_,
    fun h1 h2 v hv hs => ?_, fun u hu hx hs => ?_, fun hx => ?_⟩
  · have hstage : stageable (s.stream k) tid = true := (stageable_iff _ _).2 ⟨u, hu, hx⟩
    have hms : m.stream k = staged { tid := tid, block := block, count := count, lanes := data } (s.stream k) := by
      rw [hmk, stageBlock_of_stageable hstage]
    have hne : (m.stream k).taken ≠ [] := by
      rw [hms]
      simpa [staged] using taken_ne_nil_of_findTaken hu
    have hsub : stagedUnbegun (m.stream k) = false ∨ (s.stream k).state ≠ .stopping := by
      rcases hx with hx | ⟨hx, hb⟩
      · exact Or.inr (by rw [hx]; simp)
      · refine Or.inl ?_
        have hfind : findTaken (m.stream k) tid = some { u with staged := u.staged + 1 } := by
          rw [findTaken_map (x := s.stream k) (f := fun v => if v.tid = tid then { v with staged := v.staged + 1 } else v)
            (fun v => by split <;> rfl) (by rw [hms]; rfl), hu]
          have ht : u.tid = tid := by simpa using List.find?_some hu
          simp [ht]
        unfold stagedUnbegun
        rw [hms] at hfind ⊢
        simp only [staged] at hfind ⊢
        rw [hfind]
        simp [hasBegun_eq_true_iff, hb]
    have hlen : data.length = lanes.length := by rw [hdata, laneBytes, List.length_zipWith, hl, Nat.min_self]
    refine ⟨data, ?_, hlen, fun i q bytes hq hb hlen' => ?_, fun i hi => ?_, ?_⟩
    · rw [drain_stream_staging]
      have hstg : (m.stream k).staging = some { tid := tid, block := block, count := count, lanes := data } := by rw [hms]; rfl
      rcases settleStop_cases_stream k m hne with e | ⟨h1, e⟩
      · rw [e, hstg]
      · rw [e, (giveBackUnbegun_staging _).1 (hsub.resolve_right (by
          rw [hms] at h1
          exact fun h => h h1)), hstg]
    · rw [hdata, laneBytes, List.getElem?_zipWith, hq, hb]
      exact congrArg some (validData_of_length hlen')
    · have hr : i < reads.length := by
        rw [← hl]; exact (List.getElem?_eq_some_iff.1 hi).1
      rw [hdata, laneBytes, List.getElem?_zipWith, List.getElem?_eq_getElem hr, hi]
      rfl
    · have hk := giveBackUnbegun_kept (m.stream k)
      obtain ⟨hgt, ⟨hc, hsch, h0, h1, hcnt, _, _⟩, hgs, _, htag, _⟩ := hk
      have hkept : ((settleStop k m).stream k).state = (s.stream k).state ∧ ((settleStop k m).stream k).tag = (s.stream k).tag ∧
          ((settleStop k m).stream k).counters = (s.stream k).counters ∧ ((settleStop k m).stream k).slot0 = (s.stream k).slot0 ∧
          ((settleStop k m).stream k).slot1 = (s.stream k).slot1 ∧
          ((s.stream k).state = .running → ((settleStop k m).stream k).chain = (s.stream k).chain) ∧
          ((settleStop k m).stream k).ctx = (s.stream k).ctx ∧ ((settleStop k m).stream k).schedule = (s.stream k).schedule ∧
          (((settleStop k m).stream k).taken.map fun v => (v.tid, v.start, v.staged)) =
            ((m.stream k).taken.map fun v => (v.tid, v.start, v.staged)) := by
        rcases settleStop_cases_stream k m hne with e | ⟨hst, e⟩
        · rw [e, hms]; exact ⟨rfl, rfl, rfl, rfl, rfl, fun _ => rfl, rfl, rfl, rfl⟩
        · rw [e, hgs, htag, hcnt, h0, h1, hc, hsch, hgt, map_allGivenBack _ fun _ => rfl, hms]
          refine ⟨rfl, rfl, rfl, rfl, rfl, fun hr => ?_, rfl, rfl, rfl⟩
          rw [hms] at hst
          exact absurd (hst.symm.trans hr) (by simp)
      obtain ⟨k1, k2, k3, k4, k5, k6, k7, k8, k9⟩ := hkept
      refine ⟨by rw [drain_stream_state, k1], by rw [drain_stream_tag, k2], by rw [drain_stream_counters, k3],
        by rw [drain_stream_slot0, k4], by rw [drain_stream_slot1, k5], fun hr => by rw [drain_stream_chain, k6 hr],
        by rw [drain_stream_ctx, k7], by rw [drain_stream_schedule, k8], ?_, hstop _ hms.symm⟩
      rw [drain_stream_taken, k9, hms]
      simp only [staged, List.map_map]
      refine List.map_congr_left fun v _ => ?_
      dsimp only [Function.comp]
      split <;> rfl
  · have h := hstop (s.stream k) (hidle (by
      rw [Bool.eq_false_iff, Ne, stageable_iff]
      rintro ⟨u, hu, hx⟩
      obtain ⟨h1, h2⟩ := hn u hu
      rcases hx with hx | ⟨hx, hb⟩
      · exact h1 hx
      · exact hb (h2 hx))).symm
    rw [show ({ s with fetch := none } : State).setStream k (s.stream k) = { s with fetch := none } from
      State.setStream_stream { s with fetch := none } k] at h
    exact h
  · rw [drain_stream_taken] at hv
    have hst : (m.stream k).state = .stopping := by rw [hmk, (quiet_stageBlock _ _).state, h1]
    have hserve : serving m k = false := by rw [hm]; exact h2
    have hfetch : fetching m k = false := by rw [fetching, hmf]
    by_cases hne : (m.stream k).taken = []
    · rw [settleStop_stream_of_empty hst hserve hfetch hne, enterRest_taken, hne] at hv
      cases hv
    · rw [settleStop_of_held hst hserve hfetch hne, onStream_self, (giveBackUnbegun_kept _).1] at hv
      exact givingBack_of_mem_allGivenBack hv hs
  · have hms := hidle (by
      rw [Bool.eq_false_iff, Ne, stageable_iff]
      rintro ⟨v, hv, hx'⟩
      rw [hu] at hv
      cases hv
      rcases hx' with hx' | ⟨_, hb⟩
      · rw [hx] at hx'; cases hx'
      · exact hb hs)
    have hne : (m.stream k).taken ≠ [] := by rw [hms]; exact taken_ne_nil_of_findTaken hu
    rw [drain_stream_staging, drain_stream_taken]
    rcases settleStop_cases_stream k m hne with e | ⟨_, e⟩
    · rw [e, hms]; exact ⟨Or.inl rfl, rfl⟩
    · rw [e, hms]
      exact ⟨(giveBackUnbegun_staging _).2, by rw [(giveBackUnbegun_kept _).1, map_allGivenBack _ fun _ => rfl]⟩
  · have hms := hidle (by
      rw [Bool.eq_false_iff, Ne, stageable_iff]
      rintro ⟨v, _, hx' | ⟨hx', _⟩⟩ <;> rw [hx'] at hx <;> simp at hx)
    rw [drain_apart, settleStop_of_idle (Or.inl ?_), hms]
    rw [hms]
    rcases hx with hx | hx <;> rw [hx] <;> simp

/-! ## The ACTIVE word of a take (R147) -/

theorem active_write (a : Nat) : stateWrite a wordActive .active = { addr := a, bytes := [2#8, 0#8, 0#8, 0#8], tag := .active } := by
  unfold stateWrite
  congr 1

/-- The ACTIVE word enters the queue at its place (R147; log entry 9). -/
theorem pushActive_of_place {x : Stream} {ahead behind : List Write} (h : ActivePlace x ahead behind) (a : Nat) :
    pushActive a x = { x with queue := ahead ++ [{ addr := a, bytes := [2#8, 0#8, 0#8, 0#8], tag := .active }] ++ behind } := by
  obtain ⟨hq, hend, hstop⟩ := h
  unfold pushActive
  dsimp only
  rw [active_write]
  by_cases hx : x.state = .stopping
  · rw [if_pos hx]
    obtain ⟨ha, hb⟩ := hstop hx
    have e := pushAhead_queue [{ addr := a, bytes := [2#8, 0#8, 0#8, 0#8], tag := .active }] hq ha hb
    show ({ x with queue := (pushAhead _ x).queue } : Stream) = _
    rw [e]
  · rw [if_neg hx]
    have hb := hend hx
    subst hb
    rw [List.append_nil] at hq ⊢
    rw [← hq]
    rfl

theorem pushActive_apart (a : Nat) (x : Stream) : (pushActive a x).apart = x.apart := by
  unfold pushActive
  dsimp only
  split <;> rfl

theorem works_takeActive {n : Loudness} (k : StreamId) (a : Nat) (h : Header) (marks : List Mark) (p : Option Profile) (s : State) :
    Works n k s (takeActive k a h marks p s) :=
  Works.fetch _ (Works.stream _ .refl)

theorem takeActive_apart (k : StreamId) (a : Nat) (h : Header) (marks : List Mark) (p : Option Profile) (s : State) :
    ((takeActive k a h marks p s).stream k).apart = (s.stream k).apart := by
  show ((onStream k (pushActive a) s).stream k).apart = _
  rw [onStream_self, pushActive_apart]

theorem takeActive_of_place {k : StreamId} {s : State} {ahead behind : List Write} (hp : ActivePlace (s.stream k) ahead behind)
    (a : Nat) (h : Header) (marks : List Mark) (p : Option Profile) : takeActive k a h marks p s =
      { s.setStream k { s.stream k with
          queue := ahead ++ [{ addr := a, bytes := [2#8, 0#8, 0#8, 0#8], tag := .active }] ++ behind } with
        fetch := some { stream := k, phase := .active a h marks p } } := by
  rw [← pushActive_of_place hp a]
  rfl

/-! ## HEADER_READ_DONE (R144) -/

theorem takeHeader_of_good {k : StreamId} {a : Nat} {h : Header} {s : State}
    (hv : headerValid (streamLanes (s.stream k)) h = true)
    (he : (s.stream k).chain.expected = none ∨ (s.stream k).chain.expected = some h.sequence) :
    takeHeader k a h s = takeMarks k a h (withSkip k (skipAfterPosted a (s.stream k)) s) := by
  have hs : sequenceOk (s.stream k).chain.expected h.sequence = true := by
    rcases he with he | he <;> rw [he] <;> simp [sequenceOk]
  rw [takeHeader_eq, if_neg (by simp [hv]), if_neg (by simp [hs])]

/-- How a take goes on after a good header (R23, R147). -/
theorem takeMarks_form (k : StreamId) (a : Nat) (h : Header) (s : State) : ∃ p, (takeMarks k a h s).fetch = some { stream := k, phase := p } ∧
    ((takeMarks k a h s).stream k).apart = (s.stream k).apart ∧ Works .silent k s (takeMarks k a h s) ∧
    (h.markCount ≠ 0 → p = .marks a h) ∧ (h.markCount = 0 → h.profileAddr ≠ 0 → p = .profile a h []) ∧
    (h.markCount = 0 → h.profileAddr = 0 → p = .active a h [] none ∧ takeMarks k a h s = takeActive k a h [] none s) := by
  unfold takeMarks takeProfile
  by_cases hm : h.markCount = 0
  · rw [if_pos hm]
    by_cases hp : h.profileAddr = 0
    · rw [if_pos hp]
      exact ⟨_, rfl, takeActive_apart .., works_takeActive .., fun hn => absurd hm hn, fun _ hn => absurd hp hn, fun _ _ => ⟨rfl, rfl⟩⟩
    · rw [if_neg hp]
      exact ⟨_, rfl, rfl, .fetch _ .refl, fun hn => absurd hm hn, fun _ _ => rfl, fun _ hn => absurd hn hp⟩
  · rw [if_neg hm]
    exact ⟨_, rfl, rfl, .fetch _ .refl, fun _ => rfl, fun hn => absurd hn hm, fun hn => absurd hn hm⟩

/-- A good header (R145 to R147). -/
theorem take_goes_on_after_header {s : State} {k : StreamId} {a : Nat} {bytes : List Byte}
    (hf : s.fetch = some { stream := k, phase := .header a }) (hlen : bytes.length = 128) (hp : (parseHeader bytes).state = 1)
    (hv : headerValid (streamLanes (s.stream k)) (parseHeader bytes) = true)
    (he : (s.stream k).chain.expected = none ∨ (s.stream k).chain.expected = some (parseHeader bytes).sequence) :
    ∃ (t : State) (p : FetchPhase), exec (.headerReadDone (some bytes)) s = .next t ∧
      t.fetch = some { stream := k, phase := p } ∧ (t.stream k).taken = (s.stream k).taken ∧
      (t.stream k).skip = (if (s.stream k).skip = some a then none else (s.stream k).skip) ∧
      (t.stream k).state = (s.stream k).state ∧ SameHoldings (s.stream k) (t.stream k) ∧
      (let h := parseHeader bytes
       (h.markCount ≠ 0 → p = .marks a h ∧ phaseReads p = [{ addr := h.marksAddr, len := 8 * h.markCount }]) ∧
       (h.markCount = 0 → h.profileAddr ≠ 0 → p = .profile a h [] ∧ phaseReads p = [{ addr := h.profileAddr, len := 64 }]) ∧
       (h.markCount = 0 → h.profileAddr = 0 → p = .active a h [] none ∧
         ∀ ahead behind : List Write, ActivePlace (s.stream k) ahead behind →
           t = drain { s.setStream k { s.stream k with
             skip := if (s.stream k).skip = some a then none else (s.stream k).skip
             queue := ahead ++ [{ addr := a, bytes := [2#8, 0#8, 0#8, 0#8], tag := .active }] ++ behind } with
               fetch := some { stream := k, phase := p } })) ∧
      OthersKept k s t ∧ SameStatus s t ∧ SameEvents s t ∧ SameAround s t ∧ t.cmd = s.cmd := by
  have hexec := exec_headerReadDone_some hf hlen
  rw [onHeader_of_posted hp, takeHeader_of_good hv he] at hexec
  obtain ⟨p, hfetch, hap, hw, hmarks, hprofile, hactive⟩ :=
    takeMarks_form k a (parseHeader bytes) (withSkip k (skipAfterPosted a (s.stream k)) s)
  have hws : Works .silent k s (takeMarks k a (parseHeader bytes) (withSkip k (skipAfterPosted a (s.stream k)) s)) :=
    (Works.stream (fun x => { x with skip := skipAfterPosted a (s.stream k) }) .refl).trans hw
  have hx : ((drain (takeMarks k a (parseHeader bytes) (withSkip k (skipAfterPosted a (s.stream k)) s))).stream k).apart =
      ({ s.stream k with skip := skipAfterPosted a (s.stream k) } : Stream).apart := by
    rw [drain_apart, hap, withSkip, State.stream_setStream_self]
  refine ⟨_, p, hexec, (drain_fetch _).trans hfetch, (Stream.taken_of_apart hx :), (Stream.skip_of_apart hx :), (Stream.state_of_apart hx :),
    (sameHoldings_of_apart hx).of_skip, ⟨fun h => ?_, fun h h' => ?_, fun h h' => ?_⟩, hws.silent_frame⟩
  · rw [hmarks h]; exact ⟨rfl, rfl⟩
  · rw [hprofile h h']; exact ⟨rfl, rfl⟩
  · obtain ⟨hp', he'⟩ := hactive h h'
    refine ⟨hp', fun ahead behind hplace => ?_⟩
    rw [he', hp', takeActive_of_place (ahead := ahead) (behind := behind) (s := withSkip k (skipAfterPosted a (s.stream k)) s)
      (by rw [withSkip, State.stream_setStream_self]; exact hplace)]
    rw [withSkip, State.stream_setStream_self, setStream_setStream]
    rfl

end Sys2Proof.Machine
end

section
/-! PROOFS. The take after its header, its marks and its profile (R23, R144 to R149, R173). -/

namespace Sys2Proof.Machine

/-! ## Waits that begin or go on (R144, R149, R150) -/

theorem takeNotPosted_form (k : StreamId) (s : State) : ∃ q o, (takeNotPosted k s).stream k = { s.stream k with
    chain := { (s.stream k).chain with wait := .state }, timer := none, readDue := true
    state := if (s.stream k).state = .running ∧ serving s k = false ∧ allVoted (s.stream k) = true then .awaitLink
      else (s.stream k).state
    queue := q, owed := o } := by
  obtain ⟨u, hu, hs, he⟩ : ∃ u : State, takeNotPosted k s = awaitIfVoted k u ∧ serving u k = serving s k ∧
      u.stream k = { s.stream k with chain := { (s.stream k).chain with wait := .state }, timer := none, readDue := true } :=
    ⟨_, rfl, rfl, onStream_self k (fun x => { x with
      chain := { x.chain with wait := .state }, timer := none, readDue := true }) (endFetch s)⟩
  obtain ⟨q, o, e⟩ := awaitIfVoted_form k u
  rw [hs, he] at e
  exact ⟨q, o, hu ▸ e⟩

theorem takeNotPosted_fetch (k : StreamId) (s : State) : (takeNotPosted k s).fetch = none := by
  rw [takeNotPosted, awaitIfVoted_fetch]
  rfl

/-- The frame of a command whose work on its stream is silent. -/
def SilentFrame (k : StreamId) (s t : State) : Prop :=
  OthersKept k s t ∧ SameStatus s t ∧ SameEvents s t ∧ SameAround s t ∧ t.cmd = s.cmd

theorem works_takeNotPosted {n : Loudness} (k : StreamId) (s : State) : Works n k s (takeNotPosted k s) :=
  ((works_endFetch k s).stream _).trans (works_awaitIfVoted k _)

/-- A take that ends in a wait on its span (R144). -/
theorem take_waits {k : StreamId} {s : State} {c : Instr} (hexec : exec c s = .next (drain (takeNotPosted k s))) :
    ∃ t : State, exec c s = .next t ∧ t.fetch = none ∧ (t.stream k).chain.wait = .state ∧ (t.stream k).readDue = true ∧
      (t.stream k).position = (s.stream k).position ∧ (t.stream k).failing = (s.stream k).failing ∧
      (t.stream k).state = (if (s.stream k).state = .running ∧ serving s k = false ∧ allVoted (s.stream k) = true
        then .awaitLink else (s.stream k).state) ∧
      (t.stream k).skip = (s.stream k).skip ∧ KeepsHoldings (s.stream k) (t.stream k) ∧ SilentFrame k s t := by
  obtain ⟨q, o, e⟩ := takeNotPosted_form k s
  have hkeep : KeepsHoldings (s.stream k) ((drain (takeNotPosted k s)).stream k) :=
    KeepsHoldings.of_apart (y := (takeNotPosted k s).stream k)
      (by rw [e]; exact ⟨⟨rfl, rfl, rfl, rfl, rfl, rfl, rfl⟩, rfl, rfl⟩) (drain_apart k _)
  exact ⟨_, hexec, by rw [drain_fetch, takeNotPosted_fetch], by rw [drain_stream_chain, e], by rw [drain_stream_readDue, e],
    by rw [drain_stream_position, e], by rw [drain_stream_failing, e], by rw [drain_stream_state, e], by rw [drain_stream_skip, e],
    hkeep, (works_takeNotPosted k s).silent_frame⟩

/-- A wait that goes on: its timer, or the read that a POLL asked for (R149, R150). -/
theorem continueWait_form (k : StreamId) (s : State) : ∃ q o, (continueWait k s).stream k = { s.stream k with
    timer := if (s.stream k).pollAgain = true then none else some s.polliv.toNat
    readDue := (s.stream k).pollAgain, pollAgain := false
    state := if (s.stream k).state = .running ∧ serving s k = false ∧ allVoted (s.stream k) = true then .awaitLink
      else (s.stream k).state
    queue := q, owed := o } := by
  obtain ⟨u, hu, hs, he⟩ : ∃ u : State, continueWait k s = awaitIfVoted k u ∧ serving u k = serving s k ∧
      u.stream k = { s.stream k with
        timer := if (s.stream k).pollAgain = true then none else some s.polliv.toNat
        readDue := (s.stream k).pollAgain, pollAgain := false } := by
    refine ⟨_, rfl, rfl, ?_⟩
    rw [onStream_self]
    by_cases hp : (s.stream k).pollAgain = true
    · rw [if_pos hp, if_pos hp, hp]
    · rw [if_neg hp, if_neg hp, Bool.eq_false_iff.2 hp]
  obtain ⟨q, o, e⟩ := awaitIfVoted_form k u
  rw [hs, he] at e
  exact ⟨q, o, hu ▸ e⟩

theorem continueWait_fetch (k : StreamId) (s : State) : (continueWait k s).fetch = s.fetch := by
  rw [continueWait, awaitIfVoted_fetch]
  rfl

theorem works_continueWait {n : Loudness} (k : StreamId) (s : State) : Works n k s (continueWait k s) :=
  (Works.stream _ .refl).trans (works_awaitIfVoted k _)

theorem follows_eq_false {st : StreamState} (h1 : st ≠ .running) (h2 : st ≠ .awaitLink) : follows st = false := by
  cases st <;> first | rfl | exact absurd rfl h1 | exact absurd rfl h2

theorem follows_eq_true {st : StreamState} (h : st = .running ∨ st = .awaitLink) : follows st = true := by
  rcases h with rfl | rfl <;> rfl

/-- The stop work that follows the end of a fetch transaction of the stream (R123, R173). -/
theorem stopWorkFollows_endFetch (k : StreamId) (s : State) : StopWorkFollows k s (drain (settleStop k (endFetch s))) :=
  stopWorkFollows rfl (endFetch_stream ..) rfl ⟨rfl, rfl, rfl⟩ ⟨rfl, rfl, rfl⟩

theorem works_settleStop_endFetch (k : StreamId) (s : State) : Works .signals k s (settleStop k (endFetch s)) :=
  (works_endFetch k s).trans (works_settleStop k _ (by simp))

/-! ## Marks (R23) -/

theorem parseMarks_length (n : Nat) (bytes : List Byte) : (parseMarks n bytes).length = n := by
  induction n generalizing bytes with
  | zero => rfl
  | succ n ih => exact congrArg Nat.succ (ih _)

theorem parseMarks_getElem? {n i : Nat} {bytes : List Byte} {m : Mark} (h : (parseMarks n bytes)[i]? = some m) :
    m = parseMark (bytes.drop (8 * i)) := by
  induction n generalizing bytes i with
  | zero => cases h
  | succ n ih =>
      cases i with
      | zero => exact (Option.some.inj h).symm
      | succ i =>
          have hm := ih (bytes := bytes.drop 8) (i := i) h
          rw [List.drop_drop] at hm
          rw [hm, Nat.mul_succ, Nat.add_comm]

theorem fieldAt_drop (bytes : List Byte) (d off len : Nat) : fieldAt (bytes.drop d) off len = fieldAt bytes (d + off) len := by
  rw [fieldAt, fieldAt, List.drop_drop]

theorem takeProfile_form (k : StreamId) (a : Nat) (h : Header) (marks : List Mark) (s : State) :
    (takeProfile k a h marks s).fetch =
      some { stream := k, phase := if h.profileAddr = 0 then .active a h marks none else .profile a h marks } ∧
    ((takeProfile k a h marks s).stream k).apart = (s.stream k).apart ∧ Works .silent k s (takeProfile k a h marks s) := by
  unfold takeProfile
  by_cases hp : h.profileAddr = 0
  · rw [if_pos hp, if_pos hp]
    exact ⟨rfl, takeActive_apart .., works_takeActive ..⟩
  · rw [if_neg hp, if_neg hp]
    exact ⟨rfl, rfl, .fetch _ .refl⟩

/-! ## The reads of a take -/

theorem exec_marksReadDone_some {s : State} {k : StreamId} {a : Nat} {h : Header} {bytes : List Byte}
    (hf : s.fetch = some { stream := k, phase := .marks a h }) (hl : bytes.length = 8 * h.markCount) :
    exec (.marksReadDone (some bytes)) s = .next (drain (takeProfile k a h (parseMarks h.markCount bytes) s)) := by
  show execMarksReadDone _ s = _
  rw [execMarksReadDone, hf]
  simp only [validData_of_length hl]

theorem exec_marksReadDone_none {s : State} {k : StreamId} {a : Nat} {h : Header}
    (hf : s.fetch = some { stream := k, phase := .marks a h }) :
    exec (.marksReadDone none) s = .next (drain (failTake k a h.sequence .marksFault s)) := by
  show execMarksReadDone none s = _
  rw [execMarksReadDone, hf]
  rfl

theorem exec_takeProfileReadDone_some {s : State} {k : StreamId} {a : Nat} {h : Header} {marks : List Mark} {bytes : List Byte}
    (hf : s.fetch = some { stream := k, phase := .profile a h marks }) (hl : bytes.length = 64) :
    exec (.takeProfileReadDone (some bytes)) s = .next (drain (takeActive k a h marks (some (parseProfile bytes)) s)) := by
  show execTakeProfileReadDone _ s = _
  rw [execTakeProfileReadDone, hf]
  simp only [validData_of_length hl]

theorem exec_takeProfileReadDone_none {s : State} {k : StreamId} {a : Nat} {h : Header} {marks : List Mark}
    (hf : s.fetch = some { stream := k, phase := .profile a h marks }) :
    exec (.takeProfileReadDone none) s = .next (drain (failTake k a h.sequence .profileFault s)) := by
  show execTakeProfileReadDone none s = _
  rw [execTakeProfileReadDone, hf]
  rfl

/-- The failure of a take is not recorded while its stream rolls back (R126). -/
theorem failTake_of_not_records {k : StreamId} {s : State} (h : recordsFailure (s.stream k).state = false) (a : Nat) (echo : Seq)
    (code : Completion) : failTake k a echo code s = endFetch s := by
  rw [failTake_eq, takeFailed_of_not_records h]
  exact State.setStream_stream (endFetch s) k

/-- A take whose marks or profile read fails (R126, R147). -/
theorem take_fails_at_read {s : State} {k : StreamId} {a : Nat} {echo : Seq} {code : Completion} {c : Instr}
    (hexec : exec c s = .next (drain (failTake k a echo code s))) :
    (recordsFailure (s.stream k).state = true → ∃ t : State, exec c s = .next t ∧ t.fetch = none ∧
      HaltsWith (takeHalt a code echo (s.stream k)) (s.stream k) (t.stream k) ∧ OthersKept k s t ∧
      SameStatus s t ∧ SameAround s t) ∧
    (recordsFailure (s.stream k).state = false → exec c s = .next (drain { s with fetch := none })) := by
  refine ⟨fun hr => ⟨_, hexec, ?_⟩, fun hr => ?_⟩
  · rw [← withSkip_own k s]
    have hown : withSkip k (s.stream k).skip s = s := withSkip_own k s
    simp only [hown]
    have hh := takeFails_halts (v := (s.stream k).skip) (a := a) (echo := echo) (code := code) hr
    rw [hown] at hh
    have hw : Works .silent k s (failTake k a echo code s) := works_failTake k s a echo code
    obtain ⟨ho, hs, -, ha, -⟩ := hw.silent_frame
    exact ⟨by rw [drain_fetch, failTake_fetch], hh, ho, hs, ha⟩
  · rw [hexec, failTake_of_not_records hr]
    rfl

/-- Settles O26: a good header, one that is not POSTED, the marks and the profile, each with the equation of its read. -/
theorem takeGoesOnAfterReads : Obligations.TakeGoesOnAfterReads := by
  unfold Obligations.TakeGoesOnAfterReads
  refine ⟨fun s k a bytes => take_goes_on_after_header, fun s k a bytes hf hl hp hx hskip => ?waits, fun s k a bytes hf hl hp h1 h2 => ?leaves,
    fun s k a h hf => ⟨fun bytes hl => ?marks, take_fails_at_read (exec_marksReadDone_none hf)⟩,
    fun s k a h marks hf => ⟨fun bytes ahead behind hl hplace => ?profile, take_fails_at_read (exec_takeProfileReadDone_none hf)⟩⟩
  case waits =>
    have hexec : exec (.headerReadDone (some bytes)) s = .next (drain (takeNotPosted k s)) := by
      rw [exec_headerReadDone_some hf hl, onHeader, if_neg (show _ ≠ wordPosted from hp), if_neg (by simp [follows_eq_true hx]),
        if_neg (by simp [skipsNow, hskip])]
    obtain ⟨t, he, h1, h2, h3, h4, h5, h6, -, ⟨h7, h8, h9⟩, hframe⟩ := take_waits hexec
    exact ⟨t, he, h1, h2, h3, h8, h7, h4, h5, h9, h6, hframe⟩
  case leaves =>
    have hexec : exec (.headerReadDone (some bytes)) s = .next (drain (settleStop k (endFetch s))) := by
      rw [exec_headerReadDone_some hf hl, onHeader, if_neg (show _ ≠ wordPosted from hp), if_pos (follows_eq_false h1 h2)]
    exact ⟨_, hexec, by rw [drain_fetch, settleStop_fetch]; rfl, stopWorkFollows_endFetch k s, (works_settleStop_endFetch k s).signals_frame⟩
  case marks =>
    obtain ⟨hfetch, hap, hw⟩ := takeProfile_form k a h (parseMarks h.markCount bytes) s
    obtain ⟨ho, hs, -, ha, hc⟩ := hw.silent_frame
    refine ⟨_, parseMarks h.markCount bytes, exec_marksReadDone_some hf hl, parseMarks_length .., fun i m hm => ?_,
      (drain_fetch _).trans hfetch, (drain_apart k _).trans hap, fun h0 ahead behind hplace => ?_, ho, hs, ha, hc⟩
    · rw [parseMarks_getElem? hm]
      simp only [parseMark, fieldAt_drop, Nat.add_zero, and_self]
    · rw [takeProfile, if_pos h0, takeActive_of_place hplace]
  case profile => rw [exec_takeProfileReadDone_some hf hl, takeActive_of_place hplace]

end Sys2Proof.Machine
end

section
/-! PROOFS. Wait reads, poll timers and the start of a skip (R141, R142, R149, R150, R154, R173). -/

namespace Sys2Proof.Machine

/-! ## The work of a wait read -/

/-- The work of a wait read of a stream that follows its chain, by what the read was of. -/
def waitWork (k : StreamId) (target : WaitTarget) (a : Nat) (whole : Bool) (data : ReadResult) (s : State) : State :=
  match target with
  | .link => linkRead k a whole data s
  | _ => if whole then skipRead k a data s else stateRead k a data s

/-- At the skip request a state wait read is of the whole header. -/
theorem waitWork_whole (k : StreamId) (a : Nat) (data : ReadResult) (s : State) :
    waitWork k .state a true data s = skipRead k a data s := rfl

theorem exec_waitReadDone_of_follows {s : State} {k : StreamId} {target : WaitTarget} {a : Nat} {whole : Bool}
    (hf : s.fetch = some { stream := k, phase := .wait target a whole false })
    (hx : (s.stream k).state = .running ∨ (s.stream k).state = .awaitLink) (data : ReadResult) :
    exec (.waitReadDone data) s = .next (drain (waitWork k target a whole data (endFetch s))) := by
  show execWaitReadDone data s = _
  rw [execWaitReadDone, hf]
  dsimp only
  rw [if_neg (by simp [follows_eq_true hx])]
  cases target with
  | link => simp only [waitWork]
  | none | state => cases whole <;> simp only [waitWork, if_true, Bool.false_eq_true, if_false]

theorem exec_waitReadDone_stale {s : State} {k : StreamId} {target : WaitTarget} {a : Nat} {whole stale : Bool}
    (hf : s.fetch = some { stream := k, phase := .wait target a whole stale })
    (hx : stale = true ∨ (s.stream k).state ≠ .running ∧ (s.stream k).state ≠ .awaitLink) (data : ReadResult) :
    exec (.waitReadDone data) s = .next (drain (endStale k (endFetch s))) := by
  show execWaitReadDone data s = _
  rw [execWaitReadDone, hf]
  exact if_pos (hx.imp_right fun h => follows_eq_false h.1 h.2)

theorem stateRead_of_posted {k : StreamId} {a : Nat} {bytes : List Byte} (hl : bytes.length = 4) (hp : leNat bytes = 1) (s : State) :
    stateRead k a (some bytes) s = beginTake k a s := by
  rw [stateRead, validData_of_length hl]
  exact if_pos hp

theorem stateRead_of_not_posted {k : StreamId} {a : Nat} {bytes : List Byte} (hl : bytes.length = 4) (hp : leNat bytes ≠ 1)
    (s : State) : stateRead k a (some bytes) s = continueWait k s := by
  rw [stateRead, validData_of_length hl]
  exact if_neg hp

theorem linkRead_of_zero {k : StreamId} {a : Nat} {whole : Bool} {data : ReadResult} (h : linkOfRead whole data = some 0) (s : State) :
    linkRead k a whole data s = continueWait k s := by
  rw [linkRead, h]
  exact if_pos rfl

theorem linkRead_of_none {k : StreamId} {a : Nat} {whole : Bool} {data : ReadResult} (h : linkOfRead whole data = none) (s : State) :
    linkRead k a whole data s = continueWait k s := by
  rw [linkRead, h]

/-- The link that a wait read has found is kept in the anchor's snapshot (R141). -/
def keepLink (link : Nat) (x : Stream) : Stream :=
  { x with chain := { x.chain with anchor := x.chain.anchor.map fun c => { c with link := link } } }

theorem linkRead_of_link {k : StreamId} {a link : Nat} {whole : Bool} {data : ReadResult} (h : linkOfRead whole data = some link)
    (hl : link ≠ 0) (s : State) : linkRead k a whole data s = followLink k a link (onStream k (keepLink link) s) := by
  rw [linkRead, h]
  exact if_neg hl

theorem linkOfRead_link {bytes : List Byte} (h : bytes.length = 8) : linkOfRead false (some bytes) = some (leNat bytes) := by
  rw [linkOfRead, validData_of_length h]; rfl

theorem linkOfRead_whole {bytes : List Byte} (h : bytes.length = 128) :
    linkOfRead true (some bytes) = some (parseHeader bytes).link := by
  rw [linkOfRead, validData_of_length h]; rfl

theorem linkOfRead_failed (whole : Bool) : linkOfRead whole none = none := by
  cases whole <;> rfl

/-! ## What the work leaves -/

/-- A wait goes on (R149, R150). -/
theorem wait_continues {k : StreamId} {s : State} {c : Instr} (hexec : exec c s = .next (drain (continueWait k (endFetch s)))) :
    ∃ t : State, exec c s = .next t ∧ t.fetch = none ∧
      (t.stream k).timer = (if (s.stream k).pollAgain = true then none else some s.polliv.toNat) ∧
      (t.stream k).readDue = (s.stream k).pollAgain ∧ (t.stream k).chain = (s.stream k).chain ∧
      (t.stream k).position = (s.stream k).position ∧ (t.stream k).failing = (s.stream k).failing ∧
      (t.stream k).state = (if (s.stream k).state = .running ∧ serving s k = false ∧ allVoted (s.stream k) = true
        then .awaitLink else (s.stream k).state) ∧
      (t.stream k).skip = (s.stream k).skip ∧ KeepsHoldings (s.stream k) (t.stream k) ∧ SilentFrame k s t := by
  obtain ⟨q, o, e⟩ := continueWait_form k (endFetch s)
  rw [endFetch_stream] at e
  have hw : Works .silent k s (continueWait k (endFetch s)) := (works_endFetch k s).trans (works_continueWait k _)
  have hkeep : KeepsHoldings (s.stream k) ((drain (continueWait k (endFetch s))).stream k) :=
    KeepsHoldings.of_apart (y := (continueWait k (endFetch s)).stream k)
      (by rw [e]; exact ⟨⟨rfl, rfl, rfl, rfl, rfl, rfl, rfl⟩, rfl, rfl⟩) (drain_apart k _)
  refine ⟨_, hexec, by rw [drain_fetch, continueWait_fetch]; rfl, by rw [drain_stream_timer, e]; rfl, by rw [drain_stream_readDue, e],
    by rw [drain_stream_chain, e], by rw [drain_stream_position, e], by rw [drain_stream_failing, e], by rw [drain_stream_state, e]; rfl,
    by rw [drain_stream_skip, e], hkeep, hw.silent_frame⟩

/-- A take begins in the transaction of a read, at an aligned address (R144, R149). -/
theorem take_begins {k : StreamId} {b : Nat} {s u : State} {c : Instr} (hexec : exec c s = .next (drain (beginTake k b u)))
    (hw : Works .silent k s u) (hb : b % 64 = 0) :
    ∃ t : State, exec c s = .next t ∧ t.fetch = some { stream := k, phase := .header b } ∧
      (t.stream k).apart = (endWait { u.stream k with position := .span b }).apart ∧ SilentFrame k s t :=
  ⟨_, hexec, by rw [drain_fetch, beginTake_fetch_of_aligned hb], by rw [drain_apart, beginTake_stream_of_aligned hb],
    (hw.trans (works_beginTake k u b)).silent_frame⟩

/-- A take fails without a read at a misaligned address (R144). -/
theorem take_halts {k : StreamId} {b : Nat} {s u : State} {c : Instr} (hexec : exec c s = .next (drain (beginTake k b u)))
    (hw : Works .silent k s u) (hb : b % 64 ≠ 0) (hr : recordsFailure (u.stream k).state = true) :
    ∃ t : State, exec c s = .next t ∧ t.fetch = none ∧
      HaltsWith (takeHalt b .descInvalid 0 (u.stream k)) { u.stream k with position := .span b } (t.stream k) ∧ SilentFrame k s t :=
  ⟨_, hexec, by rw [drain_fetch, beginTake_fetch_of_misaligned hb], beginTake_halts hb hr, (hw.trans (works_beginTake k u b)).silent_frame⟩

/-- A nonzero link with no bypass entry begins the take at it (R149). -/
theorem exec_waitReadDone_of_link {s : State} {k : StreamId} {a link : Nat} {whole : Bool} {data : ReadResult}
    (hf : s.fetch = some { stream := k, phase := .wait .link a whole false })
    (hx : (s.stream k).state = .running ∨ (s.stream k).state = .awaitLink) (hd : linkOfRead whole data = some link) (hl : link ≠ 0)
    (hb : ∀ e ∈ (s.stream k).chain.bypass, e.preceding ≠ a) :
    ∃ u, exec (.waitReadDone data) s = .next (drain (beginTake k link u)) ∧ Works .silent k s u ∧ u.stream k = keepLink link (s.stream k) := by
  have hu : (onStream k (keepLink link) (endFetch s)).stream k = keepLink link (s.stream k) := by
    rw [onStream_self, endFetch_stream]
  refine ⟨onStream k (keepLink link) (endFetch s), ?_, (works_endFetch k s).stream _, hu⟩
  rw [exec_waitReadDone_of_follows hf hx]
  rw [waitWork, linkRead_of_link hd hl, followLink_of_none]
  rw [hu]
  exact bypassOf_eq_none hb

/-! ## The end of a stale wait read (R173) -/

theorem endStale_of_open {k : StreamId} {s : State} (h : (s.stream k).state ≠ .closed) : endStale k s = settleStop k s :=
  if_neg h

theorem endStale_of_closed {k : StreamId} {s : State} (h : (s.stream k).state = .closed) :
    endStale k s = onStream k (closeChain k) s :=
  if_pos h

theorem works_endStale (k : StreamId) (s : State) : Works .signals k s (endStale k s) := by
  unfold endStale
  split
  · exact .stream _ .refl
  · exact works_settleStop k s (by simp)

/-- What CLOSE left of a chain whose wait read was in progress, when that read ends (R128; log entry 19). -/
theorem closedChain_emptied {s : State} {k : StreamId} (hx : (s.stream k).state = .closed) :
    let t := drain (onStream k (closeChain k) (endFetch s))
    (t.stream k).state = .closed ∧
      (t.stream k).chain = { anchor := none, expected := none, wait := .none, bypass := [] } ∧ SameEvents s t ∧
      (∀ c, (s.stream k).chain.anchor = some c → c.finished = true → (t.stream k).owed = (s.stream k).owed ∧
        UnderWay t k { addr := c.addr, bytes := [4#8, 0#8, 0#8, 0#8], tag := .anchorRelease .close c.sequence }) ∧
      ((∀ c, (s.stream k).chain.anchor = some c → c.finished = false) → ∀ p st, (s.stream k).progressAddr = some p →
        st ∈ (s.stream k).owed → UnderWay t k (recordWrite k { s.stream k with state := st } p)) := by
  intro t
  have hk : (onStream k (closeChain k) (endFetch s)).stream k = closeChain k (s.stream k) := by
    rw [onStream_self, endFetch_stream]
  obtain ⟨hchain, hstate, -⟩ := closeChain_kept k (s.stream k)
  refine ⟨by rw [drain_stream_state, hk, hstate, hx], by rw [drain_stream_chain, hk, hchain]; rfl,
    Works.events (((works_endFetch k s).stream _)) ⟨rfl, rfl, rfl⟩, fun c hc hfin => ⟨?_, ?_⟩, fun hn p st hp hst => ?_⟩
  · rw [drain_stream_owed, hk, closeChain_of_finished hc hfin]; rfl
  · refine underWay_drain_of_mem ?_ rfl (by simp)
    rw [hk, closeChain_of_finished hc hfin]
    exact List.mem_append_right _ (List.mem_singleton.2 rfl)
  · refine underWay_record (y := { s.stream k with state := st }) ?_
    rw [hk, closeChain_of_none hn]
    unfold handOwed
    rw [show ({ s.stream k with chain := Chain.empty } : Stream).progressAddr = some p from hp]
    exact List.mem_append_right _ (List.mem_map_of_mem hst)

theorem expireTimer_of_some {x : Stream} (h : x.timer ≠ none) : expireTimer x = { x with timer := none, readDue := true } := by
  unfold expireTimer
  split
  · next e => exact absurd e h
  · rfl

theorem expireTimer_of_none {x : Stream} (h : x.timer = none) : expireTimer x = x := by
  unfold expireTimer
  rw [h]

/-- Settles O27: `wait_continues`, `take_begins` and `take_halts` by what the read found; `endStale` for a stale one. -/
theorem waitReadsAndTimers : Obligations.WaitReadsAndTimers := by
  unfold Obligations.WaitReadsAndTimers
  refine ⟨fun s k target a data hf hx => ⟨fun hd => ?waits, fun bytes b ht hl hv hb hby hd => ?halts, fun bytes b hb hd hdata => ?takes⟩,
    fun s k target a whole stale data hf hx => ?stale, fun s k => ⟨fun h => ?timer, fun h => ?noTimer⟩⟩
  case waits =>
    have hexec : exec (.waitReadDone data) s = .next (drain (continueWait k (endFetch s))) := by
      rw [exec_waitReadDone_of_follows hf hx]
      rcases hd with rfl | ⟨bytes, rfl, rfl, hl, h0⟩ | ⟨bytes, rfl, rfl, hl, h1⟩
      · cases target <;> rfl
      · exact congrArg (fun u => Host.Outcome.next (drain u)) (linkRead_of_zero (by rw [linkOfRead_link hl, h0]) _)
      · exact congrArg (fun u => Host.Outcome.next (drain u)) (stateRead_of_not_posted hl h1 _)
    obtain ⟨t, he, h1, h2, h3, h4, h5, h6, h7, -, ⟨h8, h9, h10⟩, h11, h12, h13, h14, -⟩ := wait_continues hexec
    exact ⟨t, he, h1, h2, h3, by rw [h4], h5, h6, h7, h10, h8, h9, h11, h12, h13, h14⟩
  case halts =>
    subst ht hv hd
    obtain ⟨u, hexec, hw, hu⟩ := exec_waitReadDone_of_link hf hx (linkOfRead_link hl) (fun h => hb (by rw [h])) hby
    obtain ⟨t, he, h1, h2, h3, h4, h5, h6, -⟩ := take_halts hexec hw hb (by rw [hu]; exact recordsFailure_of_follows hx)
    rw [hu] at h2
    exact ⟨t, he, h1, h2, h3, h4, h5, h6⟩
  case takes =>
    subst hdata
    obtain ⟨u, hexec, hw, y, hu, hy, hst⟩ : ∃ u, exec (.waitReadDone (some bytes)) s = .next (drain (beginTake k b u)) ∧
        Works .silent k s u ∧ ∃ y, u.stream k = y ∧ KeepsHoldings (s.stream k) y ∧ y.state = (s.stream k).state := by
      rcases hd with ⟨rfl, hl, h1, rfl⟩ | ⟨rfl, hl, rfl, h0, hby⟩
      · refine ⟨endFetch s, ?_, works_endFetch k s, _, endFetch_stream .., .refl _, rfl⟩
        rw [exec_waitReadDone_of_follows hf hx]
        exact congrArg (fun u => Host.Outcome.next (drain u)) (stateRead_of_posted hl h1 _)
      · obtain ⟨u, hexec, hw, hu⟩ := exec_waitReadDone_of_link hf hx (linkOfRead_link hl) h0 hby
        exact ⟨u, hexec, hw, _, hu, ⟨⟨rfl, rfl, rfl, rfl, rfl, rfl, rfl⟩, rfl, rfl⟩, rfl⟩
    obtain ⟨t, he, hfetch, hap, h1, h2, h3, h4, -⟩ := take_begins hexec hw hb
    rw [hu] at hap
    have hkeep : KeepsHoldings (s.stream k) (t.stream k) :=
      (hy.trans (z := endWait { y with position := .span b }) ⟨⟨rfl, rfl, rfl, rfl, rfl, rfl, rfl⟩, rfl, rfl⟩).of_apart hap
    obtain ⟨hh, ht, -⟩ := hkeep
    exact ⟨t, he, hfetch, (Stream.position_of_apart hap :), (Stream.timer_of_apart hap :), congrArg Chain.wait (Stream.chain_of_apart hap :), hh, ht,
      (Stream.state_of_apart hap :).trans hst, h1, h2, h3, h4⟩
  case stale =>
    have hexec := exec_waitReadDone_stale hf hx data
    obtain ⟨ho, hs, ha, hc⟩ := ((works_endFetch k s).trans (works_endStale k (endFetch s))).signals_frame
    refine ⟨_, hexec, ?_, fun hn => ?_, fun hcl => ?_, ho, hs, ha, hc⟩
    · rw [drain_fetch]
      unfold endStale
      split
      · rfl
      · rw [settleStop_fetch]; rfl
    · rw [endStale_of_open (s := endFetch s) hn]; exact stopWorkFollows_endFetch k s
    · rw [endStale_of_closed (s := endFetch s) hcl]; exact closedChain_emptied hcl
  case timer =>
    show Host.Outcome.next (s.setStream k (expireTimer (s.stream k))) = _
    rw [expireTimer_of_some h]
  case noTimer =>
    show Host.Outcome.next (s.setStream k (expireTimer (s.stream k))) = _
    rw [expireTimer_of_none h, State.setStream_stream]

end Sys2Proof.Machine
end

section
/-! PROOFS. The start of a skip, and the links that a bypass entry names (R142, R154, R195). -/

namespace Sys2Proof.Machine

/-! ## The start of a skip (R154) -/

theorem skipsNow_iff (x : Stream) (a : Nat) (h : Header) : skipsNow x a h = true ↔ x.skip = some a ∧ h.state = 5 ∧ h.link ≠ 0 := by
  simp [skipsNow, wordFailed, and_assoc]

/-- A stream whose skip begins. -/
theorem skip_stream (a : Nat) (x : Stream) : pushWrite (stateWrite a wordReleased .skipReleased)
      (pushWrite (reportWrite a (leBytes 4 (completionCode .skipped)) .skipCode) (endWait x)) =
    { x with
      chain := { x.chain with wait := .none }, timer := none, readDue := false, pollAgain := false
      queue := x.queue ++ [{ addr := a + 0x80, bytes := [1#8, 0#8, 0#8, 0#8], tag := .skipCode },
        { addr := a, bytes := [4#8, 0#8, 0#8, 0#8], tag := .skipReleased }] } := by
  unfold pushWrite
  dsimp only
  rw [List.append_assoc]
  rfl

theorem beginSkip_eq (k : StreamId) (a : Nat) (h : Header) (s : State) : beginSkip k a h s =
    { s.setStream k { s.stream k with
        chain := { (s.stream k).chain with wait := .none }, timer := none, readDue := false, pollAgain := false
        queue := (s.stream k).queue ++
          [{ addr := a + 0x80, bytes := [1#8, 0#8, 0#8, 0#8], tag := .skipCode },
           { addr := a, bytes := [4#8, 0#8, 0#8, 0#8], tag := .skipReleased }] } with
      fetch := some { stream := k, phase := .skip a h } } := by
  unfold beginSkip onStream
  dsimp only
  rw [skip_stream]

theorem skipRead_of_posted {k : StreamId} {a : Nat} {bytes : List Byte} (hl : bytes.length = 128) (hp : (parseHeader bytes).state = 1)
    (s : State) : skipRead k a (some bytes) s = beginTake k a s := by
  rw [skipRead, validData_of_length hl]
  exact if_pos hp

theorem skipRead_of_failed {k : StreamId} {a : Nat} {bytes : List Byte} {s : State} (hl : bytes.length = 128)
    (h5 : (parseHeader bytes).state = 5) (h : skipsNow (s.stream k) a (parseHeader bytes) = true) :
    skipRead k a (some bytes) s = beginSkip k a (parseHeader bytes) s := by
  rw [skipRead, validData_of_length hl]
  dsimp only
  rw [if_neg (by rw [h5]; decide), if_pos h]

theorem skipRead_of_other {k : StreamId} {a : Nat} {bytes : List Byte} {s : State} (hl : bytes.length = 128)
    (h1 : (parseHeader bytes).state ≠ 1) (h : ¬ skipsNow (s.stream k) a (parseHeader bytes) = true) :
    skipRead k a (some bytes) s = continueWait k s := by
  rw [skipRead, validData_of_length hl]
  dsimp only
  rw [if_neg (show _ ≠ wordPosted from h1), if_neg h]

/-- Settles O28: `beginSkip_eq` where the skip begins, and the outcomes of a header read and a wait read where it does not. -/
theorem skipBegins : Obligations.SkipBegins := by
  unfold Obligations.SkipBegins
  intro s k a hs hx
  refine ⟨fun c bytes hl h5 hn hc => ?begins, fun c data hd hc => ?waits, fun bytes hl h1 ha hf => ?takes, fun hf =>
    ⟨fun data hd => ?linkWaits, fun bytes hl hn ha hb => ?linkTakes, fun bytes hl ha hb => ?linkHalts⟩⟩
  case begins =>
    have hskip : skipsNow (s.stream k) a (parseHeader bytes) = true := (skipsNow_iff ..).2 ⟨hs, h5, hn⟩
    rcases hc with ⟨hf, rfl⟩ | ⟨hf, rfl⟩
    · rw [exec_headerReadDone_some hf hl, onHeader, if_neg (by rw [h5]; decide), if_neg (by simp [follows_eq_true hx]), if_pos hskip,
        beginSkip_eq]
    · rw [exec_waitReadDone_of_follows hf hx, waitWork_whole, skipRead_of_failed (s := endFetch s) hl h5 hskip, beginSkip_eq]
      rfl
  case waits =>
    have hno : ∀ bytes, data = some bytes → bytes.length = 128 ∧ (parseHeader bytes).state ≠ 1 ∧
        ¬ skipsNow (s.stream k) a (parseHeader bytes) = true := by
      rintro bytes rfl
      obtain ⟨b, hb, hl, h1, h5⟩ := hd.resolve_left (by simp)
      cases hb
      exact ⟨hl, h1, fun h => ((skipsNow_iff ..).1 h).2.2 (h5 ((skipsNow_iff ..).1 h).2.1)⟩
    rcases hc with ⟨hf, hdn, rfl⟩ | ⟨hf, rfl⟩
    · obtain ⟨bytes, rfl⟩ := Option.ne_none_iff_exists'.1 hdn
      obtain ⟨hl, h1, hns⟩ := hno bytes rfl
      have hexec : exec (.headerReadDone (some bytes)) s = .next (drain (takeNotPosted k s)) := by
        rw [exec_headerReadDone_some hf hl, onHeader, if_neg (show _ ≠ wordPosted from h1), if_neg (by simp [follows_eq_true hx]),
          if_neg hns]
      obtain ⟨t, he, g1, g2, g3, g4, g5, g6, g7, ⟨g8, g9, g10⟩, hframe⟩ := take_waits hexec
      exact ⟨t, he, g1, g7.trans hs, g5, g9, g4, g8, g10, g6, fun _ => ⟨g2, g3⟩, fun h => (by cases h), hframe⟩
    · have hexec : exec (.waitReadDone data) s = .next (drain (continueWait k (endFetch s))) := by
        rw [exec_waitReadDone_of_follows hf hx, waitWork_whole]
        cases data with
        | none => rfl
        | some bytes =>
            obtain ⟨hl, h1, hns⟩ := hno bytes rfl
            rw [skipRead_of_other (s := endFetch s) hl h1 hns]
      obtain ⟨t, he, g1, g2, g3, g4, g5, g6, g7, g8, ⟨g9, g10, g11⟩, hframe⟩ := wait_continues hexec
      exact ⟨t, he, g1, g8.trans hs, g6, g10, g5, g9, g11, g7, fun h => (by cases h), fun _ => ⟨by rw [g4], g3, g2⟩, hframe⟩
  case takes =>
    have hexec : exec (.waitReadDone (some bytes)) s = .next (drain (beginTake k a (endFetch s))) := by
      rw [exec_waitReadDone_of_follows hf hx, waitWork_whole, skipRead_of_posted hl h1]
    obtain ⟨t, he, hfetch, hap, hframe⟩ := take_begins hexec (works_endFetch k s) ha
    rw [endFetch_stream] at hap
    have hkeep : KeepsHoldings (s.stream k) (t.stream k) :=
      KeepsHoldings.of_apart (y := endWait { s.stream k with position := .span a }) ⟨⟨rfl, rfl, rfl, rfl, rfl, rfl, rfl⟩, rfl, rfl⟩ hap
    exact ⟨t, he, hfetch, (Stream.skip_of_apart hap :).trans hs, (Stream.position_of_apart hap :), (Stream.timer_of_apart hap :),
      congrArg Chain.wait (Stream.chain_of_apart hap :), hkeep.2.1, hkeep.1, hframe⟩
  case linkWaits =>
    have hexec : exec (.waitReadDone data) s = .next (drain (continueWait k (endFetch s))) := by
      rw [exec_waitReadDone_of_follows hf hx, waitWork]
      rcases hd with rfl | ⟨bytes, rfl, hl, h0⟩
      · rw [linkRead_of_none (linkOfRead_failed true)]
      · rw [linkRead_of_zero (by rw [linkOfRead_whole hl, h0])]
    obtain ⟨t, he, g1, g2, g3, g4, g5, g6, g7, g8, -, hframe⟩ := wait_continues hexec
    exact ⟨t, he, g1, g8.trans hs, g4, g5, g7, g3, g2, hframe⟩
  case linkTakes =>
    obtain ⟨u, hexec, hw, hu⟩ := exec_waitReadDone_of_link hf hx (linkOfRead_whole hl) hn hb
    obtain ⟨t, he, hfetch, hap, hframe⟩ := take_begins hexec hw ha
    rw [hu] at hap
    exact ⟨t, he, hfetch, (Stream.skip_of_apart hap :).trans hs, (Stream.position_of_apart hap :), (Stream.timer_of_apart hap :),
      congrArg Chain.wait (Stream.chain_of_apart hap :), (Stream.state_of_apart hap :), hframe⟩
  case linkHalts =>
    obtain ⟨u, hexec, hw, hu⟩ := exec_waitReadDone_of_link hf hx (linkOfRead_whole hl) (fun h => ha (by rw [h])) hb
    obtain ⟨t, he, hfetch, hh, hframe⟩ := take_halts hexec hw ha (by rw [hu]; exact recordsFailure_of_follows hx)
    rw [hu] at hh
    obtain ⟨h1, h2, -, h4, -, -, h7, -, -, h10, -, -, -, -, h15, -⟩ := hh
    exact ⟨t, he, hfetch, h1, h2, h4, h15, h7, h10, hframe⟩

/-! ## Links that a bypass entry names (R195) -/

/-- The chain context as a link followed leaves it, its anchor having the bypass entry `b`. -/
def followed (a link : Nat) (b : Bypass) (c : Chain) : Chain :=
  if b.skipped = link then { c with expected := some (b.sequence + 1) } else dropBypass a c

theorem followLink_of_bypass {k : StreamId} {a : Nat} {b : Bypass} {s : State} (h : bypassOf (s.stream k).chain a = some b) (link : Nat) :
    followLink k a link s = beginTake k (if b.skipped = link then b.link else link)
      (onStream k (fun x => { x with chain := followed a link b x.chain }) s) := by
  by_cases hl : b.skipped = link
  · subst hl
    rw [followLink_of_skipped h]
    simp only [followed, if_true]
  · rw [followLink_of_other h hl]
    simp only [followed, if_neg hl]

theorem bypassOf_dropBypass (a : Nat) (c : Chain) : bypassOf (dropBypass a c) a = none :=
  bypassOf_eq_none fun b hb => by simpa using (List.mem_filter.1 hb).2

theorem followed_expected (a link : Nat) (b : Bypass) (c : Chain) :
    (followed a link b c).expected = if b.skipped = link then some (b.sequence + 1) else c.expected := by
  unfold followed
  split <;> rfl

theorem followed_bypass (a link : Nat) (b : Bypass) (c : Chain) : (followed a link b c).bypass =
    if b.skipped = link then c.bypass else c.bypass.filter fun e => !decide (e.preceding = a) := by
  unfold followed
  split <;> rfl

theorem followed_anchor (a link : Nat) (b : Bypass) (c : Chain) : (followed a link b c).anchor = c.anchor := by
  unfold followed
  split <;> rfl

/-- The stream whose link has been followed at an anchor with a bypass entry, to an aligned address and to another. -/
theorem followLink_stream {k : StreamId} {a link target : Nat} {b : Bypass} {s : State} (h : bypassOf (s.stream k).chain a = some b)
    (ht : target = if b.skipped = link then b.link else link) :
    (target % 64 = 0 → (followLink k a link s).fetch = some { stream := k, phase := .header target } ∧
      (followLink k a link s).stream k =
        endWait { s.stream k with position := .span target, chain := followed a link b (s.stream k).chain }) ∧
    (target % 64 ≠ 0 → recordsFailure (s.stream k).state = true → (followLink k a link s).fetch = none ∧
      HaltsWith (takeHalt target .descInvalid 0 { s.stream k with chain := followed a link b (s.stream k).chain })
        { s.stream k with position := .span target, chain := followed a link b (s.stream k).chain }
        ((drain (followLink k a link s)).stream k)) := by
  rw [followLink_of_bypass h, ← ht]
  have hu : (onStream k (fun x => { x with chain := followed a link b x.chain }) s).stream k =
      { s.stream k with chain := followed a link b (s.stream k).chain } := onStream_self k _ s
  refine ⟨fun ha => ⟨beginTake_fetch_of_aligned ha, ?_⟩, fun ha hr => ⟨beginTake_fetch_of_misaligned ha, ?_⟩⟩
  · rw [beginTake_stream_of_aligned ha, hu]
  · have hh := beginTake_halts (s := onStream k (fun x => { x with chain := followed a link b x.chain }) s) ha (by rw [hu]; exact hr)
    rw [hu] at hh
    exact hh

/-- What a followed link leaves of its stream, its anchor's snapshot being `snapshot` (R141, R148, R195). -/
theorem passed_over {k : StreamId} {a link target : Nat} {b : Bypass} {snapshot : Option Anchor} {s t u : State}
    (hu : u.stream k = { s.stream k with chain := { (s.stream k).chain with anchor := snapshot } })
    (hb : bypassOf (s.stream k).chain a = some b) (ht : target = if b.skipped = link then b.link else link)
    (hr : recordsFailure (s.stream k).state = true) (htu : t = drain (followLink k a link u)) :
    (t.stream k).position = .span target ∧ (t.stream k).chain.wait = .none ∧
      (t.stream k).timer = none ∧ (t.stream k).chain.anchor = snapshot ∧
      (t.stream k).chain.expected = (if b.skipped = link then some (b.sequence + 1) else (s.stream k).chain.expected) ∧
      (t.stream k).chain.bypass = (if b.skipped = link then (s.stream k).chain.bypass
        else (s.stream k).chain.bypass.filter fun e => !decide (e.preceding = a)) ∧
      (target % 64 = 0 → t.fetch = some { stream := k, phase := .header target } ∧
        (t.stream k).state = (s.stream k).state ∧ (t.stream k).failing = (s.stream k).failing ∧
        (t.stream k).skip = (s.stream k).skip ∧ (t.stream k).queue <:+ (s.stream k).queue) ∧
      (target % 64 ≠ 0 → t.fetch = none ∧ (t.stream k).state = .halting ∧ (t.stream k).skip = none ∧
        (t.stream k).failing = some { addr := target, code := .descInvalid }) := by
  obtain ⟨haligned, hmis⟩ := followLink_stream (s := u) (target := target) (by rw [hu]; exact hb) ht
  by_cases ha : target % 64 = 0
  · obtain ⟨hfetch, hst⟩ := haligned ha
    rw [hu] at hst
    have hq := drain_queue_suffix k (followLink k a link u)
    have hap := (drain_apart k (followLink k a link u)).trans (congrArg Stream.apart hst)
    have hf : t.fetch = some { stream := k, phase := .header target } := by rw [htu, drain_fetch, hfetch]
    rw [← htu] at hap hq
    rw [hst] at hq
    have hchain := (Stream.chain_of_apart hap :)
    refine ⟨(Stream.position_of_apart hap :), congrArg Chain.wait hchain, (Stream.timer_of_apart hap :), ?_, ?_, ?_,
      fun _ => ⟨hf, (Stream.state_of_apart hap :), (Stream.failing_of_apart hap :), (Stream.skip_of_apart hap :), hq⟩,
      fun h => absurd ha h⟩
    · exact (congrArg Chain.anchor hchain).trans (followed_anchor ..)
    · exact (congrArg Chain.expected hchain).trans (followed_expected ..)
    · exact (congrArg Chain.bypass hchain).trans (followed_bypass ..)
  · obtain ⟨hfetch, hh⟩ := hmis ha (by rw [hu]; exact hr)
    rw [hu, ← htu] at hh
    obtain ⟨g1, g2, -, g4, g5, -, g7, -, -, -, -, -, -, -, g15, g16, g17, g18, -, -⟩ := hh
    exact ⟨g15, g7, g5, g16.trans (followed_anchor ..), g17.trans (followed_expected ..), g18.trans (followed_bypass ..),
      fun h => absurd h ha, fun _ => ⟨by rw [htu, drain_fetch, hfetch], g1, g4, g2⟩⟩

/-- Settles O29: `followLink_stream` for a followed link, `passed_over` for the two commands that follow one. -/
theorem bypassedLinkPassedOver : Obligations.BypassedLinkPassedOver := by
  unfold Obligations.BypassedLinkPassedOver
  refine ⟨fun s k anchor link b hb => ⟨fun he ha => ?named, fun hn ha => ?other⟩, fun c s k a link target b snapshot hb hl ht hc => ?passed⟩
  case named =>
    obtain ⟨hf, hst⟩ := (followLink_stream (link := link) (target := b.link) hb (if_pos he).symm).1 ha
    rw [hst]
    refine ⟨hf, rfl, (followed_expected ..).trans (if_pos he), rfl, ?_⟩
    exact (congrArg (List.find? _) ((followed_bypass anchor link b _).trans (if_pos he))).trans hb
  case other =>
    obtain ⟨hf, hst⟩ := (followLink_stream (link := link) (target := link) hb (if_neg hn).symm).1 ha
    rw [hst]
    refine ⟨hf, (followed_expected ..).trans (if_neg hn), ?_⟩
    exact (congrArg (List.find? _) ((followed_bypass anchor link b _).trans (if_neg hn))).trans
      (bypassOf_dropBypass anchor (s.stream k).chain)
  case passed =>
    have hwork : ∃ u, exec c s = .next (drain (followLink k a link u)) ∧ SilentFrame k s (drain (followLink k a link u)) ∧
        u.stream k = { s.stream k with chain := { (s.stream k).chain with anchor := snapshot } } ∧
        recordsFailure (s.stream k).state = true := by
      rcases hc with ⟨rfl, he, hf, hk, ho, hlane, hp, hw, hal, rfl⟩ | ⟨hx, rfl, bytes, rfl, hread⟩
      · refine ⟨{ s with fetchLast := k }, ?_, ?_, rfl, ?_⟩
        · rw [exec_fetchGrant_of_requests he hf hk, grantFetch, if_neg (by simp [ho]), if_neg (by simp [hlane]),
            grantChain_follow (s := { s with fetchLast := k }) hp hw (by rw [← hal] at hl; exact hl)]
          rw [← hal]; rfl
        · have hw : Works .silent k { s with fetchLast := k } (followLink k a link { s with fetchLast := k }) := works_followLink k _ _ _
          exact ⟨hw.others rfl, hw.status (by simp) ⟨rfl, rfl⟩, hw.events ⟨rfl, rfl, rfl⟩,
            hw.around ⟨⟨rfl, rfl, rfl, rfl⟩, ⟨rfl, rfl, rfl⟩, rfl, rfl, rfl⟩, (drain_cmd _).trans hw.cmd⟩
        · have hr := (requests_iff s k).1 (firstAfter_some hk)
          rw [ho, hlane] at hr
          obtain ⟨hst, -⟩ := (needsChainRead_iff _).1 ((hr.resolve_left (by simp)).resolve_left (by simp)).1
          exact recordsFailure_of_follows hst
      · obtain ⟨whole, hf, hd⟩ : ∃ whole, s.fetch = some { stream := k, phase := .wait .link a whole false } ∧
            linkOfRead whole (some bytes) = some link := by
          rcases hread with ⟨hf, hlen, rfl⟩ | ⟨hf, hlen, rfl⟩
          · exact ⟨false, hf, linkOfRead_link hlen⟩
          · exact ⟨true, hf, linkOfRead_whole hlen⟩
        refine ⟨onStream k (keepLink link) (endFetch s), ?_,
          (((works_endFetch k s).stream _).trans (works_followLink k _ _ _)).silent_frame, ?_, recordsFailure_of_follows hx⟩
        · rw [exec_waitReadDone_of_follows hf hx, waitWork, linkRead_of_link hd hl]
        · rw [onStream_self, endFetch_stream]; rfl
    obtain ⟨u, hexec, hframe, hu, hr⟩ := hwork
    obtain ⟨h1, h2, h3, h4, h5, h6, h7, h8⟩ := passed_over hu hb ht hr rfl
    have hkeep : KeepsHoldings (s.stream k) ((drain (followLink k a link u)).stream k) := by
      refine KeepsHoldings.of_apart (KeepsHoldings.trans ?_ (followLink_keeps k a link u)) (drain_apart k _)
      rw [hu]
      exact ⟨⟨rfl, rfl, rfl, rfl, rfl, rfl, rfl⟩, rfl, rfl⟩
    exact ⟨_, hexec, h1, h2, h3, h4, h5, h6, h7, h8, hkeep.2.1, hkeep.2.2, hkeep.1, hframe⟩

end Sys2Proof.Machine
end

section
/-! PROOFS. The reads of an OPEN: the reel table entry and the profile (R118 to R120, R187). -/

namespace Sys2Proof.Machine

/-! ## Reel table entries (R118, R187) -/

theorem laneCountOf?_eq_none_iff (n : Nat) : laneCountOf? n = none ↔ n ≠ 1 ∧ n ≠ 3 := by
  unfold laneCountOf?
  split <;> simp_all

theorem formatOf?_eq_none_iff (n : Nat) : formatOf? n = none ↔ 2 ≤ n := by
  match n with
  | 0 => simp [formatOf?]
  | 1 => simp [formatOf?]
  | n + 2 => simp [formatOf?]

theorem orderOf?_eq_none_iff (n : Nat) : orderOf? n = none ↔ 2 ≤ n := by
  match n with
  | 0 => simp [orderOf?]
  | 1 => simp [orderOf?]
  | n + 2 => simp [orderOf?]

theorem laneCountOf?_one_iff {n : Nat} {c : LaneCount} (h : laneCountOf? n = some c) : c = .one ↔ n = 1 := by
  unfold laneCountOf? at h
  split at h <;> cases h <;> simp

theorem formatOf?_l16_iff {n : Nat} {f : Format} (h : formatOf? n = some f) : f = .l16 ↔ n = 0 := by
  unfold formatOf? at h
  split at h <;> cases h <;> simp

theorem orderOf?_little_iff {n : Nat} {o : ByteOrder} (h : orderOf? n = some o) : o = .little ↔ n = 0 := by
  unfold orderOf? at h
  split at h <;> cases h <;> simp

/-- The configuration bytes of an entry are those of its fields (R187). -/
theorem entryConfig?_eq_some_iff (bytes : List Byte) (cfg : StreamConfig) : entryConfig? bytes = some cfg ↔
    laneCountOf? (fieldAt bytes 0 1) = some cfg.laneCount ∧ formatOf? (fieldAt bytes 1 1) = some cfg.laneFormat ∧
      orderOf? (fieldAt bytes 2 1) = some cfg.laneOrder ∧ formatOf? (fieldAt bytes 3 1) = some cfg.outputFormat ∧
      orderOf? (fieldAt bytes 4 1) = some cfg.outputOrder := by
  unfold entryConfig?
  constructor
  · intro h
    split at h
    · next h1 h2 h3 h4 h5 => cases h; exact ⟨h1, h2, h3, h4, h5⟩
    · cases h
  · rintro ⟨h1, h2, h3, h4, h5⟩
    rw [h1, h2, h3, h4, h5]

theorem entryConfig?_eq_none_iff (bytes : List Byte) : entryConfig? bytes = none ↔
    fieldAt bytes 0 1 ≠ 1 ∧ fieldAt bytes 0 1 ≠ 3 ∨ 2 ≤ fieldAt bytes 1 1 ∨ 2 ≤ fieldAt bytes 2 1 ∨ 2 ≤ fieldAt bytes 3 1 ∨
      2 ≤ fieldAt bytes 4 1 := by
  rw [← laneCountOf?_eq_none_iff, ← formatOf?_eq_none_iff, ← orderOf?_eq_none_iff, ← formatOf?_eq_none_iff, ← orderOf?_eq_none_iff]
  unfold entryConfig?
  constructor
  · intro h
    by_contra hn
    simp only [not_or] at hn
    obtain ⟨h1, h2, h3, h4, h5⟩ := hn
    obtain ⟨_, e1⟩ := Option.ne_none_iff_exists'.1 h1
    obtain ⟨_, e2⟩ := Option.ne_none_iff_exists'.1 h2
    obtain ⟨_, e3⟩ := Option.ne_none_iff_exists'.1 h3
    obtain ⟨_, e4⟩ := Option.ne_none_iff_exists'.1 h4
    obtain ⟨_, e5⟩ := Option.ne_none_iff_exists'.1 h5
    rw [e1, e2, e3, e4, e5] at h
    cases h
  · intro h
    split
    · next h1 h2 h3 h4 h5 => simp [h1, h2, h3, h4, h5] at h
    · rfl

theorem progressUsable_iff (a : Nat) : progressUsable a = true ↔ a ≠ 0 ∧ a % 64 = 0 := by
  simp [progressUsable]

theorem parseEntry?_eq_none_iff (bytes : List Byte) : parseEntry? bytes = none ↔
    fieldAt bytes 0 1 ≠ 1 ∧ fieldAt bytes 0 1 ≠ 3 ∨ 2 ≤ fieldAt bytes 1 1 ∨ 2 ≤ fieldAt bytes 2 1 ∨
      2 ≤ fieldAt bytes 3 1 ∨ 2 ≤ fieldAt bytes 4 1 ∨ fieldAt bytes 0x08 8 = 0 ∨ fieldAt bytes 0x10 8 = 0 ∨
      fieldAt bytes 0x10 8 % 64 ≠ 0 ∨ fieldAt bytes 0x18 8 = 0 ∨ fieldAt bytes 0x18 8 % 64 ≠ 0 := by
  have hc := entryConfig?_eq_none_iff bytes
  unfold parseEntry?
  cases he : entryConfig? bytes with
  | none =>
      have hbad := hc.1 he
      exact iff_of_true rfl (by omega)
  | some cfg =>
      have hgood := mt hc.2 (by rw [he]; simp)
      simp only [progressUsable_iff, entryProgress]
      split
      · next h => exact iff_of_false (by simp) (by omega)
      · next h => exact iff_of_true rfl (by omega)

theorem parseEntry?_eq_some {bytes : List Byte} {e : ReelEntry} (h : parseEntry? bytes = some e) :
    entryConfig? bytes = some e.config ∧ e.head = fieldAt bytes 0x08 8 ∧ e.profileAddr = fieldAt bytes 0x10 8 ∧
      e.progressAddr = fieldAt bytes 0x18 8 := by
  unfold parseEntry? at h
  split at h
  · cases h
  · next cfg hc =>
      dsimp only at h
      split at h
      · cases h; exact ⟨hc, rfl, rfl, rfl⟩
      · cases h

/-! ## The failure of an OPEN (R119) -/

theorem works_failOpenRecord {n : Loudness} (hn : n ≠ .silent) (k : StreamId) (code : OpenCode) (a : Nat) (s : State) :
    Works n k s (failOpenRecord k code a s) :=
  ((works_endFetch k s).stream _).signal _ hn

theorem works_failEntry (k : StreamId) (bytes : List Byte) (s : State) : Works .faults k s (failEntry k bytes s) := by
  unfold failEntry
  split
  · exact works_failOpenRecord (by simp) k _ _ s
  · exact (((works_endFetch k s).stream _).fault _ rfl).signal _ (by simp)

theorem failOpenRecord_stream (k : StreamId) (code : OpenCode) (a : Nat) (s : State) : (failOpenRecord k code a s).stream k =
    pushWrite (recordWrite k { s.stream k with state := .closed, openCode := some code } a)
      { s.stream k with state := .closed, openCode := some code } := by
  rw [failOpenRecord, signal_stream, onStream_self, endFetch_stream]

theorem failOpenRecord_fetch (k : StreamId) (code : OpenCode) (a : Nat) (s : State) : (failOpenRecord k code a s).fetch = none := by
  rw [failOpenRecord, signal_fetch]
  rfl

theorem latched_failOpenRecord (k : StreamId) (code : OpenCode) (a : Nat) (s : State) :
    latched (failOpenRecord k code a s).evlatch .attention = true := by
  rw [failOpenRecord, latched_signal]
  simp

theorem underWay_failOpenRecord (k : StreamId) (code : OpenCode) (a : Nat) (s : State) : UnderWay (drain (failOpenRecord k code a s)) k
    (recordWrite k { s.stream k with state := .closed, openCode := some code } a) := by
  refine underWay_record ?_
  rw [failOpenRecord_stream]
  exact List.mem_append_right _ (List.mem_singleton.2 rfl)

theorem failEntry_of_usable {bytes : List Byte} (h0 : fieldAt bytes 0x18 8 ≠ 0) (h : fieldAt bytes 0x18 8 % 64 = 0) (k : StreamId)
    (s : State) : failEntry k bytes s = failOpenRecord k .entryInvalid (fieldAt bytes 0x18 8) s :=
  if_pos ((progressUsable_iff _).2 ⟨h0, h⟩)

theorem failEntry_of_unusable {bytes : List Byte} (h : fieldAt bytes 0x18 8 = 0 ∨ fieldAt bytes 0x18 8 % 64 ≠ 0) (k : StreamId)
    (s : State) : failEntry k bytes s = signal .attention (setFault faultTable (streamBits k)
      (onStream k (fun x => { x with state := .closed, openCode := some .entryInvalid }) (endFetch s))) :=
  if_neg fun hu => by
    obtain ⟨h0, h1⟩ := (progressUsable_iff _).1 hu
    exact h.elim h0 fun h => h h1

theorem failEntry_stream_apart (k : StreamId) (bytes : List Byte) (s : State) : ((failEntry k bytes s).stream k).apart =
    ({ s.stream k with state := .closed, openCode := some .entryInvalid } : Stream).apart := by
  unfold failEntry
  split
  · rw [failOpenRecord_stream]; rfl
  · rw [signal_stream, setFault_stream, onStream_self, endFetch_stream]

theorem failEntry_fetch (k : StreamId) (bytes : List Byte) (s : State) : (failEntry k bytes s).fetch = none := by
  unfold failEntry
  split
  · exact failOpenRecord_fetch ..
  · rw [signal_fetch, setFault_fetch]; rfl

theorem latched_failEntry (k : StreamId) (bytes : List Byte) (s : State) : latched (failEntry k bytes s).evlatch .attention = true := by
  unfold failEntry
  split
  · exact latched_failOpenRecord ..
  · rw [latched_signal]; simp

/-! ## ENTRY_READ_DONE (R118) -/

theorem exec_entryReadDone_none {s : State} {k : StreamId} {a : Nat} (hf : s.fetch = some { stream := k, phase := .entry a }) :
    exec (.entryReadDone none) s = .next (drain (failOpenTable k s)) := by
  show execEntryReadDone none s = _
  rw [execEntryReadDone, hf]
  rfl

theorem exec_entryReadDone_invalid {s : State} {k : StreamId} {a : Nat} {bytes : List Byte}
    (hf : s.fetch = some { stream := k, phase := .entry a }) (hl : bytes.length = 64) (h : parseEntry? bytes = none) :
    exec (.entryReadDone (some bytes)) s = .next (drain (failEntry k bytes s)) := by
  show execEntryReadDone _ s = _
  rw [execEntryReadDone, hf]
  simp only [validData_of_length hl, h]

theorem exec_entryReadDone_good {s : State} {k : StreamId} {a : Nat} {bytes : List Byte} {e : ReelEntry}
    (hf : s.fetch = some { stream := k, phase := .entry a }) (hl : bytes.length = 64) (h : parseEntry? bytes = some e) :
    exec (.entryReadDone (some bytes)) s = .next { s with fetch := some { stream := k, phase := .openProfile e } } := by
  show execEntryReadDone _ s = _
  rw [execEntryReadDone, hf]
  simp only [validData_of_length hl, h]

/-- Settles O30: `parseEntry?` for the checks, and the failures of an OPEN for a read that fails and an entry that does. -/
theorem entryReadJudged : Obligations.EntryReadJudged := by
  unfold Obligations.EntryReadJudged
  intro s k a hf
  refine ⟨fun bytes hl h0 h1 h2 h3 h4 h5 h6 h7 h8 h9 => ?good, fun data hd => ?bad⟩
  case good =>
    obtain ⟨e, he⟩ : ∃ e, parseEntry? bytes = some e := by
      rw [← Option.ne_none_iff_exists', Ne, parseEntry?_eq_none_iff]
      omega
    obtain ⟨hc, g1, g2, g3⟩ := parseEntry?_eq_some he
    obtain ⟨c1, c2, c3, c4, c5⟩ := (entryConfig?_eq_some_iff ..).1 hc
    exact ⟨e, exec_entryReadDone_good hf hl he, g1, g2, g3, laneCountOf?_one_iff c1, formatOf?_l16_iff c2, orderOf?_little_iff c3,
      formatOf?_l16_iff c4, orderOf?_little_iff c5⟩
  case bad =>
    rcases hd with rfl | ⟨bytes, rfl, hl, hbad⟩
    · have hw := works_failOpenTable k s
      obtain ⟨ha, -⟩ := latched_failOpenTable k s
      refine ⟨_, exec_entryReadDone_none hf, ?_, by rw [drain_fetch, failOpenTable_fetch], ?_, ?_, ?_, by rw [drain_evlatch, ha],
        hw.others rfl, (drain_cmd _).trans hw.cmd, ?_, fun _ => ⟨by rw [drain_faults, failOpenTable_faults],
          by rw [drain_lastFault, failOpenTable_lastFault, toNat_streamBits]⟩, fun bytes h => (by cases h)⟩
      · rw [drain_stream_state, failOpenTable_stream]
      · rw [drain_stream_tag, failOpenTable_stream]
      · rw [drain_stream_counters, failOpenTable_stream]
      · rw [drain_stream_ctx, failOpenTable_stream]
      · rw [drain_stream_openCode, failOpenTable_stream, if_pos rfl]
    · have hw := works_failEntry k bytes s
      have hap := (drain_apart k (failEntry k bytes s)).trans (failEntry_stream_apart k bytes s)
      refine ⟨_, exec_entryReadDone_invalid hf hl ((parseEntry?_eq_none_iff bytes).2 hbad), (Stream.state_of_apart hap :),
        by rw [drain_fetch, failEntry_fetch], (Stream.tag_of_apart hap :), (Stream.counters_of_apart hap :), (Stream.ctx_of_apart hap :),
        by rw [drain_evlatch, latched_failEntry], hw.others rfl, (drain_cmd _).trans hw.cmd,
        (Stream.openCode_of_apart hap :).trans (if_neg (by simp)).symm, fun h => ?_, fun b hb h0 h1 => ?_⟩
      · obtain ⟨b, hb, hun⟩ := h.resolve_left (by simp)
        cases hb
        rw [failEntry_of_unusable hun]
        exact ⟨by rw [drain_faults, signal_faults, setFault_faults]; rfl,
          by rw [drain_lastFault, signal_lastFault, setFault_lastFault, toNat_streamBits]⟩
      · cases hb
        rw [failEntry_of_usable h0 h1]
        exact ⟨(works_failOpenRecord (n := .signals) (by simp) k _ _ s).status (by simp) ⟨rfl, rfl⟩, underWay_failOpenRecord ..⟩

/-! ## OPEN_PROFILE_READ_DONE (R119, R120) -/

theorem exec_openProfileReadDone_none {s : State} {k : StreamId} {e : ReelEntry}
    (hf : s.fetch = some { stream := k, phase := .openProfile e }) :
    exec (.openProfileReadDone none) s = .next (drain (failOpenRecord k .profileFault e.progressAddr s)) := by
  show execOpenProfileReadDone none s = _
  rw [execOpenProfileReadDone, hf]
  rfl

theorem exec_openProfileReadDone_some {s : State} {k : StreamId} {e : ReelEntry} {bytes : List Byte}
    (hf : s.fetch = some { stream := k, phase := .openProfile e }) (hl : bytes.length = 64) :
    exec (.openProfileReadDone (some bytes)) s = .next (drain (onStream k (openStream k e (parseProfile bytes)) (endFetch s))) := by
  show execOpenProfileReadDone _ s = _
  rw [execOpenProfileReadDone, hf]
  simp only [validData_of_length hl]

theorem freshBy_freshContext (cfg : StreamConfig) (p : Profile) (b : Bool) : FreshBy p (freshContext cfg p b) where
  profile := rfl
  lanes := rfl
  marks := rfl
  hum := rfl
  click := rfl
  hiss := rfl
  position := rfl
  reelEnd := rfl

theorem profileClamped_eq (p : Profile) : profileClamped p = decide (limitProfile p ≠ p) := by
  unfold profileClamped
  rw [bne, Bool.beq_eq_decide_eq, decide_not]

/-- Settles O31: `failOpenRecord`, and `openStream` with the fresh context. -/
theorem openProfileOpensStream : Obligations.OpenProfileOpensStream := by
  unfold Obligations.OpenProfileOpensStream
  intro s k e hf
  refine ⟨?fails, fun bytes hl => ?opens⟩
  case fails =>
    have hw : Works .signals k s (failOpenRecord k .profileFault e.progressAddr s) := works_failOpenRecord (by simp) ..
    have hap := (drain_apart k (failOpenRecord k .profileFault e.progressAddr s)).trans
      (congrArg Stream.apart (failOpenRecord_stream k .profileFault e.progressAddr s))
    exact ⟨_, exec_openProfileReadDone_none hf, (Stream.state_of_apart hap :), (Stream.openCode_of_apart hap :),
      (Stream.tag_of_apart hap :), by rw [drain_fetch, failOpenRecord_fetch], (Stream.ctx_of_apart hap :), (Stream.counters_of_apart hap :),
      underWay_failOpenRecord .., by rw [drain_evlatch, latched_failOpenRecord], hw.others rfl, hw.status (by simp) ⟨rfl, rfl⟩⟩
  case opens =>
    have hw : Works .silent k s (onStream k (openStream k e (parseProfile bytes)) (endFetch s)) := (works_endFetch k s).stream _
    have hap := drain_onStream_apart k (openStream k e (parseProfile bytes)) (endFetch s)
    rw [endFetch_stream] at hap
    obtain ⟨ho, hs, he, -, -⟩ := hw.silent_frame
    refine ⟨_, freshContext e.config (limitProfile (parseProfile bytes)) (profileClamped (parseProfile bytes)),
      exec_openProfileReadDone_some hf hl, ?_, freshBy_freshContext .., rfl, rfl, profileClamped_eq _, ?_, ?_, ?_, ?_, ?_, ?_, ?_, ?_,
      fun hno => ?_, ?_, by rw [drain_fetch]; rfl, ho, hs, he⟩
    · exact (Stream.ctx_of_apart hap :).trans (by simp [openStream])
    · exact (Stream.state_of_apart hap :).trans (by simp [openStream])
    · exact (Stream.position_of_apart hap :).trans (by simp [openStream])
    · exact (Stream.progressAddr_of_apart hap :).trans (by simp [openStream])
    · exact (congrArg Chain.expected (Stream.chain_of_apart hap :)).trans (by simp [openStream, Chain.empty])
    · exact (Stream.failing_of_apart hap :).trans (by simp [openStream])
    · exact (Stream.skip_of_apart hap :).trans (by simp [openStream])
    · exact (Stream.openCode_of_apart hap :).trans (by simp [openStream])
    · exact (Stream.counters_of_apart hap :).trans (by simp [openStream]; rfl)
    · rw [recordWrite_of_apart hap, openStream, enterState, recordWrite_handRecord]
      refine underWay_record ?_
      rw [onStream_self, endFetch_stream]
      exact recordWrite_mem_handRecord hno rfl
    · exact (Stream.tag_of_apart hap :).trans (by simp [openStream])

end Sys2Proof.Machine
end

section
/-! PROOFS. The start of a span (R114, R133, R135). -/

namespace Sys2Proof.Machine

/-! ## The context at a span's first sample (R133) -/

section startSpan

variable (t : Taken) (ctx : SignalContext)

theorem startContext_of_reelEnd {p : Option Profile} {ctx : SignalContext} (h : ctx.reelEnd = true) :
    startContext p ctx = freshContext ctx.config ((p.map limitProfile).getD ctx.profile) ctx.pendingClamp :=
  if_pos h

theorem startContext_none {ctx : SignalContext} (h : ctx.reelEnd = false) : startContext none ctx = ctx :=
  if_neg (by simp [h])

theorem startContext_some {q : Profile} {ctx : SignalContext} (h : ctx.reelEnd = false) :
    startContext (some q) ctx = applyProfile (limitProfile q) ctx :=
  if_neg (by simp [h])

/-- The position of the next sample, after a LAST span that of a new reel. -/
theorem startContext_position (p : Option Profile) :
    (startContext p ctx).position = if ctx.reelEnd = true then 0 else ctx.position := by
  cases h : ctx.reelEnd with
  | true => rw [startContext_of_reelEnd h]; rfl
  | false => cases p with
    | none => rw [startContext_none h]; rfl
    | some q => rw [startContext_some h]; rfl

/-- What either start of a context keeps: the configuration and the pending clamp mark. -/
theorem startContext_kept (p : Option Profile) : (startContext p ctx).config = ctx.config ∧
    (startContext p ctx).pendingClamp = ctx.pendingClamp ∧ (startContext p ctx).reelEnd = false ∧
    (startContext p ctx).tallies = (if ctx.reelEnd = true then [] else ctx.tallies) ∧
    (startContext p ctx).profile = (match p with | none => ctx.profile | some q => limitProfile q) := by
  cases h : ctx.reelEnd with
  | true => rw [startContext_of_reelEnd h]; cases p <;> exact ⟨rfl, rfl, rfl, rfl, rfl⟩
  | false => cases p with
    | none => rw [startContext_none h]; exact ⟨rfl, rfl, h, rfl, rfl⟩
    | some q => rw [startContext_some h]; exact ⟨rfl, rfl, h, rfl, rfl⟩

theorem startSpan_position : (startSpan t ctx).position = if ctx.reelEnd = true then 0 else ctx.position :=
  startContext_position ctx t.profile

/-- A context in which the flags of R133 step 5 act. -/
theorem startSpan_lanes : (startSpan t ctx).lanes =
    if t.header.freshLanes = true then applyFreshLanes (startContext t.profile ctx).lanes else (startContext t.profile ctx).lanes := rfl

theorem startSpan_hum : (startSpan t ctx).hum =
    if t.header.resetHum = true then freshHum else (startContext t.profile ctx).hum := rfl

/-- The noise level is clamped to the range of a limited profile (R62). -/
theorem clampNoise_limited (q : Profile) (noise : Int) : clampNoise (limitProfile q).noiseMin noise =
    max (16 * ((limitProfile q).noiseMin : Int)) (min (16 * 8388607) noise) := by
  have h : (limitProfile q).noiseMin ≤ 65535 := (limitNat_bounds 1 65535 q.noiseMin (by decide)).2
  exact clampNoise_eq (by omega) noise

/-- After a LAST span every part is fresh, whatever the flags (R114). -/
theorem freshBy_startSpan {ctx : SignalContext} (h : ctx.reelEnd = true) : FreshBy (startSpan t ctx).profile (startSpan t ctx) := by
  have hp : (startSpan t ctx).profile = (t.profile.map limitProfile).getD ctx.profile := by
    show (startContext t.profile ctx).profile = _
    rw [startContext_of_reelEnd h]; rfl
  have hc := startContext_of_reelEnd (p := t.profile) h
  have hf := freshBy_freshContext ctx.config ((t.profile.map limitProfile).getD ctx.profile) ctx.pendingClamp
  rw [← hc] at hf
  rw [hp]
  refine ⟨hp, ?_, hf.marks, ?_, hf.click, hf.hiss, hf.position, hf.reelEnd⟩
  · rw [startSpan_lanes, hf.lanes]
    split <;> rfl
  · rw [startSpan_hum, hf.hum]
    split <;> rfl

/-- FRESH_LANES keeps the prediction history (R22). -/
theorem startSpan_freshLanes {t : Taken} (h : t.header.freshLanes = true) : (startSpan t ctx).lanes.retired = none ∧
    (startSpan t ctx).lanes.counter = 0 ∧ (∀ l : Lane, (startSpan t ctx).lanes.counts[l] = 0) ∧
    (ctx.reelEnd = false → (startSpan t ctx).lanes.history = ctx.lanes.history) := by
  rw [startSpan_lanes, if_pos h]
  refine ⟨rfl, rfl, fun l => ?_, fun hr => ?_⟩
  · show zeroCounts[l] = 0
    simp [zeroCounts]
  · cases hp : t.profile with
    | none => rw [startContext_none hr]; rfl
    | some q => rw [startContext_some hr]; rfl

/-- The tallies that a span opens (R133, R156, R157). -/
theorem startSpan_tallies : (startSpan t ctx).tallies = (if ctx.reelEnd = true then [] else ctx.tallies) ++
    [openTally t (startSpan t ctx).position ctx.pendingClamp] := by
  obtain ⟨-, hclamp, -, htallies, -⟩ := startContext_kept ctx t.profile
  show (startContext t.profile ctx).tallies ++ [openTally t _ (startContext t.profile ctx).pendingClamp] = _
  rw [htallies, hclamp]
  rfl

theorem openTally_clamped (start : Nat) (b : Bool) : (openTally t start b).clamped = true ↔
    b = true ∨ ∃ p, t.profile = some p ∧ limitProfile p ≠ p := by
  show ((match t.profile with | none => false | some q => profileClamped q) || b) = true ↔ _
  cases t.profile <;> simp [profileClamped_eq, or_comm]

end startSpan

/-! ## The checkpoint (R135) -/

theorem beginSpan_eq {x : Stream} {ctx : SignalContext} (h : x.ctx = some ctx) (t : Taken) : beginSpan t x =
    { x with
      slot0 := if x.slot0.isSome then x.slot0 else some { ctx := ctx, span := t.addr }
      slot1 := if x.slot0.isSome then some { ctx := ctx, span := t.addr } else x.slot1
      ctx := some (startSpan t ctx)
      schedule := some (buildSchedule (startSpan t ctx).position t.header.count t.marks)
      taken := x.taken.map fun u => if u.tid = t.tid then
        { u with start := some (startSpan t ctx).position, slot := some x.slot0.isSome } else u } := by
  unfold beginSpan
  rw [h]
  rfl

/-- Settles O32: `beginSpan_eq` for the checkpoint, and each part of `startSpan`. -/
theorem spanStart : Obligations.SpanStart := by
  unfold Obligations.SpanStart
  refine ⟨fun t x ctx hx => ?checkpoint, fun t ctx => ?context⟩
  case checkpoint =>
    rw [beginSpan_eq hx t]
    refine ⟨fun h => by simp [h], fun h => ?_, fun u hu ht => ?_, rfl⟩
    · have hs : x.slot0.isSome = true := Option.isSome_iff_ne_none.2 h
      simp [hs]
    · obtain ⟨v, -, rfl⟩ := List.mem_map.1 hu
      by_cases hv : v.tid = t.tid
      · rw [if_pos hv]
        exact ⟨rfl, congrArg some (startSpan_position t ctx)⟩
      · rw [if_neg hv] at ht
        exact absurd ht hv
  case context =>
    obtain ⟨hcfg, -, hreel, -, hprofile⟩ := startContext_kept ctx t.profile
    refine ⟨hreel, rfl, hcfg, hprofile, ⟨_, startSpan_tallies t ctx, rfl, rfl, rfl, rfl, rfl, rfl, rfl, rfl, rfl, rfl, rfl, rfl, rfl, rfl,
      rfl, rfl, rfl, rfl, rfl, rfl, rfl, rfl, rfl, rfl, rfl, rfl, rfl, rfl, openTally_clamped ..⟩, startSpan_freshLanes ctx,
      fun h => by rw [startSpan_hum, if_pos h]; rfl, freshBy_startSpan t, fun hr q hq => ?_, fun hr hq => ?_, fun hr hq h1 h2 => ?_⟩
    · have hc : startContext t.profile ctx = applyProfile (limitProfile q) ctx := by rw [hq, startContext_some hr]
      refine ⟨?_, ?_, ?_, ?_, fun h => ?_, fun h => ?_⟩
      · show (startContext t.profile ctx).click = _
        rw [hc, ← clampNoise_limited]
        rfl
      · show (startContext t.profile ctx).hiss = _
        rw [hc]; rfl
      · show (startContext t.profile ctx).marks = _
        rw [hc]; rfl
      · show (startContext t.profile ctx).position = _
        rw [hc]; rfl
      · rw [startSpan_lanes, if_neg (by simp [h]), hc]; rfl
      · rw [startSpan_hum, if_neg (by simp [h]), hc]; rfl
    · have hc : startContext t.profile ctx = ctx := by rw [hq, startContext_none hr]
      refine ⟨(congrArg SignalContext.click hc :), (congrArg SignalContext.hiss hc :), (congrArg SignalContext.marks hc :),
        (congrArg SignalContext.position hc :), fun h => ?_, fun h => ?_⟩
      · rw [startSpan_lanes, if_neg (by simp [h]), hc]
      · rw [startSpan_hum, if_neg (by simp [h]), hc]
    · have hc : startContext t.profile ctx = ctx := by rw [hq, startContext_none hr]
      have hl : (startSpan t ctx).lanes = ctx.lanes := by rw [startSpan_lanes, if_neg (by simp [h1]), hc]
      have hh : (startSpan t ctx).hum = ctx.hum := by rw [startSpan_hum, if_neg (by simp [h2]), hc]
      have hform : startSpan t ctx = { startContext t.profile ctx with
        lanes := (startSpan t ctx).lanes, hum := (startSpan t ctx).hum, pendingClamp := false
        tallies := (startSpan t ctx).tallies } := rfl
      rw [hc, hl, hh] at hform
      rw [← hr]
      exact hform.trans (by rw [← hr])

end Sys2Proof.Machine
end

section
/-! PROOFS. A granted block: its rows, its run through the stages, and what the run hands on (R2, R6, R7, R81, R105, R168). -/

namespace Sys2Proof.Machine

/-! ## Rows of a block (R2, R6, R7) -/

theorem decodeAllL16_length (order : ByteOrder) (bytes : List Byte) : (decodeAllL16 order bytes).length = bytes.length / 2 := by
  induction bytes using decodeAllL16.induct with
  | case1 b0 b1 rest ih => simp only [decodeAllL16, List.length_cons, ih]; omega
  | case2 bytes h =>
      match bytes with
      | [] => rfl
      | [_] => simp [decodeAllL16]
      | a :: b :: rest => exact absurd rfl (h a b rest)

theorem decodeAllL24_length (order : ByteOrder) (bytes : List Byte) : (decodeAllL24 order bytes).length = bytes.length / 4 := by
  induction bytes using decodeAllL24.induct with
  | case1 b0 b1 b2 b3 rest ih => simp only [decodeAllL24, List.length_cons, ih]; omega
  | case2 bytes h =>
      match bytes with
      | [] => rfl
      | [_] => simp [decodeAllL24]
      | [_, _] => simp [decodeAllL24]
      | [_, _, _] => simp [decodeAllL24]
      | a :: b :: c :: d :: rest => exact absurd rfl (h a b c d rest)

theorem laneSamples_length {cfg : StreamConfig} {n : Nat} {a : ReadResult} (h : LaneFits cfg n a) :
    (laneSamples cfg n a).length = n := by
  cases a with
  | none => exact List.length_replicate
  | some bytes =>
      have hl := h bytes rfl
      cases hf : cfg.laneFormat <;> rw [hf] at hl <;> dsimp only at hl
      · rw [laneSamples, decodeContainers, hf]
        dsimp only
        rw [decodeAllL16_length]; omega
      · rw [laneSamples, decodeContainers, hf]
        dsimp only
        rw [decodeAllL24_length]; omega

theorem zipThree_length {as bs cs : List Sample} {n : Nat} (ha : as.length = n) (hb : bs.length = n) (hc : cs.length = n) :
    (zipThree as bs cs).length = n := by
  induction n generalizing as bs cs with
  | zero => rw [List.eq_nil_of_length_eq_zero ha]; rfl
  | succ n ih =>
      obtain ⟨a, as, rfl⟩ := List.exists_cons_of_length_eq_add_one ha
      obtain ⟨b, bs, rfl⟩ := List.exists_cons_of_length_eq_add_one hb
      obtain ⟨c, cs, rfl⟩ := List.exists_cons_of_length_eq_add_one hc
      exact congrArg Nat.succ (ih (Nat.succ.inj ha) (Nat.succ.inj hb) (Nat.succ.inj hc))

theorem zipThree_getElem? {as bs cs : List Sample} {i : Nat} {x y z : Sample} (ha : as[i]? = some x) (hb : bs[i]? = some y)
    (hc : cs[i]? = some z) : (zipThree as bs cs)[i]? = some (.three x y z) := by
  induction i generalizing as bs cs with
  | zero =>
      match as, bs, cs with
      | a :: as, b :: bs, c :: cs => cases ha; cases hb; cases hc; rfl
  | succ i ih =>
      match as, bs, cs with
      | a :: as, b :: bs, c :: cs => exact ih (as := as) (bs := bs) (cs := cs) ha hb hc

theorem mem_zipThree {as bs cs : List Sample} {row : LaneRow} (h : row ∈ zipThree as bs cs) :
    ∃ x ∈ as, ∃ y ∈ bs, ∃ z ∈ cs, row = .three x y z := by
  induction as generalizing bs cs with
  | nil => cases h
  | cons a as ih =>
      match bs, cs with
      | [], _ => cases h
      | b :: bs, [] => cases h
      | b :: bs, c :: cs =>
          rcases List.mem_cons.1 h with rfl | h
          · exact ⟨a, by simp, b, by simp, c, by simp, rfl⟩
          · obtain ⟨x, hx, y, hy, z, hz, e⟩ := ih h
            exact ⟨x, List.mem_cons_of_mem _ hx, y, List.mem_cons_of_mem _ hy, z, List.mem_cons_of_mem _ hz, e⟩

theorem blockRows_one {cfg : StreamConfig} (h : cfg.laneCount = .one) (n : Nat) (a : ReadResult) :
    blockRows cfg n [a] = (laneSamples cfg n a).map .one := by
  unfold blockRows
  rw [h]

theorem blockRows_three {cfg : StreamConfig} (h : cfg.laneCount = .three) (n : Nat) (a b c : ReadResult) :
    blockRows cfg n [a, b, c] = zipThree (laneSamples cfg n a) (laneSamples cfg n b) (laneSamples cfg n c) := by
  unfold blockRows
  rw [h]

/-- Every sample of a failed lane read is a void of origin FETCH (R6). -/
theorem eq_void_of_mem_failed {cfg : StreamConfig} {n : Nat} {a : ReadResult} {x : Sample} (hx : x ∈ laneSamples cfg n a)
    (ha : a = none) : x = .void .fetch := by
  subst ha
  exact List.eq_of_mem_replicate hx

/-! ## Hand-over (R85, R105, R107) -/

theorem handOver_container {x : Stream} {span : Nat} {u : Taken} (h : liveSpan x span = some u) (index : Nat) (bytes : List Byte) :
    handOver x (.container span index bytes) = { x with
      queue := x.queue ++ [{ addr := u.header.outputAddr + index * bytes.length, bytes := bytes, tag := .container u.tid }] } := by
  simp only [handOver, h]
  rfl

theorem handOver_logEntry {x : Stream} {span : Nat} {u : Taken} (h : liveSpan x span = some u) (slot : Nat) (bytes : List Byte) :
    handOver x (.logEntry span slot bytes) = { x with
      queue := x.queue ++ [{ addr := u.header.logAddr + 16 * slot, bytes := bytes, tag := .logEntry u.tid }] } := by
  simp only [handOver, h]
  rfl

theorem handOver_complete {x : Stream} {span : Nat} {u : Taken} (h : liveSpan x span = some u) (y : Tally) :
    handOver x (.complete span y) = { x with
      queue := x.queue ++
        [{ addr := u.addr + 0x80, bytes := reportBytes .ok u.header.sequence y 0 0, tag := .report u.tid },
         { addr := u.addr, bytes := [], tag := .finish u.tid false }]
      taken := x.taken.map fun v => if v.tid = u.tid then { v with final := some y } else v } := by
  simp only [handOver, h, onTaken, pushWrite, List.append_assoc]
  rfl

/-- The span that an emission names. -/
def emitSpan : Emit → Nat
  | .container span _ _ | .logEntry span _ _ | .complete span _ => span

theorem handOver_of_none {x : Stream} {e : Emit} (h : liveSpan x (emitSpan e) = none) : handOver x e = x := by
  cases e <;> simp only [emitSpan] at h <;> simp only [handOver, h]

/-- A stream with its staged block, context and flush mark replaced. -/
def withWork (st : Option Staged) (c : Option SignalContext) (f : Bool) (x : Stream) : Stream :=
  { x with staging := st, ctx := c, flushMade := f }

theorem handOver_withWork (st : Option Staged) (c : Option SignalContext) (f : Bool) (x : Stream) (e : Emit) :
    handOver (withWork st c f x) e = withWork st c f (handOver x e) := by
  have hl : ∀ span, liveSpan (withWork st c f x) span = liveSpan x span := fun _ => rfl
  cases h : liveSpan x (emitSpan e) with
  | none => rw [handOver_of_none h, handOver_of_none ((hl _).trans h)]
  | some u =>
      cases e with
      | container => dsimp only [emitSpan] at h; rw [handOver_container h, handOver_container ((hl _).trans h)]; rfl
      | logEntry => dsimp only [emitSpan] at h; rw [handOver_logEntry h, handOver_logEntry ((hl _).trans h)]; rfl
      | complete => dsimp only [emitSpan] at h; rw [handOver_complete h, handOver_complete ((hl _).trans h)]; rfl

theorem foldl_handOver_withWork (st : Option Staged) (c : Option SignalContext) (f : Bool) (es : List Emit) (x : Stream) :
    es.foldl handOver (withWork st c f x) = withWork st c f (es.foldl handOver x) := by
  induction es generalizing x with
  | nil => rfl
  | cons e es ih => rw [List.foldl_cons, List.foldl_cons, handOver_withWork, ih]

/-- What is handed on changes of a list's entries their final tallies alone. -/
theorem map_taken_handOver {α : Type} {g : Taken → α} (hg : ∀ v y, g { v with final := y } = g v) (x : Stream) (e : Emit) :
    (handOver x e).taken.map g = x.taken.map g := by
  cases h : liveSpan x (emitSpan e) with
  | none => rw [handOver_of_none h]
  | some u =>
      cases e with
      | container => dsimp only [emitSpan] at h; rw [handOver_container h]
      | logEntry => dsimp only [emitSpan] at h; rw [handOver_logEntry h]
      | complete span y =>
          dsimp only [emitSpan] at h
          rw [handOver_complete h, List.map_map]
          refine List.map_congr_left fun v _ => ?_
          show g (if _ then _ else _) = _
          split
          · exact hg v _
          · rfl

theorem map_taken_foldl_handOver {α : Type} {g : Taken → α} (hg : ∀ v y, g { v with final := y } = g v) (es : List Emit) (x : Stream) :
    (es.foldl handOver x).taken.map g = x.taken.map g := by
  induction es generalizing x with
  | nil => rfl
  | cons e es ih => rw [List.foldl_cons, ih, map_taken_handOver hg]

/-! ## Completion (R81, R107; log entry 38) -/

theorem windowIn_iff (span : Nat) (c : ClickState) : windowIn span c = true ↔ ∃ w, c.window = some w ∧ w.span = span := by
  unfold windowIn
  cases c.window <;> simp

theorem isComplete_iff (r : Run) (t : Tally) : isComplete r t = true ↔ t.thEnd ≠ none ∧
    ((∀ w, r.ctx.click.window = some w → w.span ≠ t.start) ∨ t.start ∉ r.live) := by
  unfold isComplete
  rw [Bool.and_eq_true, Option.isSome_iff_ne_none, Bool.not_eq_true', Bool.and_eq_false_iff, ← Bool.not_eq_true, windowIn_iff,
    ← Bool.not_eq_true, List.contains_iff_mem]
  simp

theorem completeRun_of_incomplete {r : Run} {y : Tally} {ys : List Tally} (h : r.ctx.tallies = y :: ys) (hc : ¬ isComplete r y = true) :
    completeRun r = r := by
  rw [completeRun, h, completeSpans, if_neg hc]

theorem completeRun_of_complete {r : Run} {y : Tally} {ys : List Tally} (h : r.ctx.tallies = y :: ys) (hc : isComplete r y = true) :
    ∃ es, (completeRun r).emits = r.emits ++ .complete y.start y :: es ∧ (completeRun r).ctx.tallies <:+ ys ∧
      (completeRun r).ctx.click = r.ctx.click := by
  rw [completeRun, h, completeSpans, if_pos hc]
  obtain ⟨hclick, -, -, -, ⟨es, hes, -⟩, hsuf⟩ := completeSpans_keeps ys (leaveOldest y r)
  refine ⟨es, ?_, ?_, hclick⟩
  · rw [hes]
    show (r.emits ++ [_]) ++ es = _
    rw [List.append_assoc]; rfl
  · have htail : (leaveOldest y r).ctx.tallies = ys := congrArg List.tail h
    rw [htail] at hsuf
    exact hsuf

/-! ## The run of a block (R168) -/

theorem countFetch_counts (n : Nat) (lanes : List ReadResult) (y : Tally) :
    (countFetch n lanes y).fetchFailed = y.fetchFailed + lanes.count none ∧
      (countFetch n lanes y).fetchVoid = y.fetchVoid + lanes.count none * n := by
  have h : (lanes.filter Option.isNone).length = lanes.count none := by
    rw [← List.countP_eq_length_filter, List.count]
    refine List.countP_congr fun r _ => ?_
    cases r <;> simp
  rw [← h]
  exact ⟨rfl, rfl⟩

/-- The stream on which a block runs: block 0 begins its span first (R133). -/
def blockBase (st : Staged) (u : Taken) (x : Stream) : Stream :=
  if st.block = 0 then beginSpan u x else x

theorem beginSpan_staging (u : Taken) (x : Stream) (st : Option Staged) :
    beginSpan u { x with staging := st } = { beginSpan u x with staging := st } := by
  rcases Option.eq_none_or_eq_some x.ctx with h | ⟨ctx, h⟩
  · simp only [beginSpan, h]
  · exact (beginSpan_eq (x := { x with staging := st }) h u).trans
      (congrArg (fun y : Stream => { y with staging := st }) (beginSpan_eq h u)).symm

theorem blockBase_staging (st : Staged) (u : Taken) (x : Stream) :
    (if st.block = 0 then beginSpan u { x with staging := none } else { x with staging := none }) =
      { blockBase st u x with staging := none } := by
  unfold blockBase
  split
  · exact beginSpan_staging u x none
  · rfl

theorem blockBase_form (st : Staged) (u : Taken) (x : Stream) : ∃ tk c s0 s1 sch, blockBase st u x =
    { x with taken := tk, ctx := c, slot0 := s0, slot1 := s1, schedule := sch } := by
  unfold blockBase
  split
  · exact beginSpan_form u x
  · exact ⟨_, _, _, _, _, rfl⟩

/-- The start of a span changes of a list's entries the start and the slot alone. -/
theorem map_taken_blockBase {α : Type} {g : Taken → α} (hg : ∀ v a b, g { v with start := a, slot := b } = g v) (st : Staged) (u : Taken)
    (x : Stream) : (blockBase st u x).taken.map g = x.taken.map g := by
  unfold blockBase
  split
  · cases h : x.ctx with
    | none => simp only [beginSpan, h]
    | some ctx =>
        rw [beginSpan_eq h, List.map_map]
        refine List.map_congr_left fun v _ => ?_
        show g (if _ then _ else _) = _
        split
        · exact hg v _ _
        · rfl
  · rfl

/-- What a block finds as it runs: its span, the context of its first sample, its start and its schedule. -/
def BlockFinds (st : Staged) (u : Taken) (x : Stream) (c : SignalContext) (start : Nat) (sched : Schedule) : Prop :=
  if st.block = 0 then ∃ ctx, x.ctx = some ctx ∧ c = startSpan u ctx ∧ start = c.position ∧
    sched = buildSchedule start u.header.count u.marks
  else x.ctx = some c ∧ u.start = some start ∧ x.schedule = some sched

theorem blockBase_finds {st : Staged} {u : Taken} {x : Stream} {c : SignalContext} {start : Nat} {sched : Schedule}
    (hu : findTaken x st.tid = some u) (h : BlockFinds st u x c start sched) :
    (blockBase st u x).ctx = some c ∧ (blockBase st u x).schedule = some sched ∧
      ∃ slot, findTaken (blockBase st u x) st.tid = some { u with start := some start, slot := slot } := by
  have ht : u.tid = st.tid := by simpa using List.find?_some hu
  unfold BlockFinds at h
  unfold blockBase
  by_cases hb : st.block = 0
  · rw [if_pos hb] at h ⊢
    obtain ⟨ctx, hx, rfl, rfl, rfl⟩ := h
    rw [beginSpan_eq hx]
    refine ⟨rfl, rfl, some x.slot0.isSome, ?_⟩
    rw [findTaken_map (x := x) (f := fun v => if v.tid = u.tid then
      { v with start := some (startSpan u ctx).position, slot := some x.slot0.isSome } else v) (fun v => by split <;> rfl) rfl, hu]
    simp
  · rw [if_neg hb] at h ⊢
    obtain ⟨hc, hs, hsch⟩ := h
    refine ⟨hc, hsch, u.slot, ?_⟩
    rw [hu, ← hs]

/-- The stream and the lane changes that a staged block leaves (R168). -/
theorem processBlock_eq {st : Staged} {u : Taken} {x : Stream} {c : SignalContext} {start : Nat} {sched : Schedule}
    (hu : findTaken x st.tid = some u) (h : BlockFinds st u x c start sched) {r : Run}
    (hr : r = blockRun (spanInfo u start sched) st (liveStarts (blockBase st u x)) c) :
    processBlock st x = ({ r.emits.foldl handOver (blockBase st u x) with
      ctx := some r.ctx, staging := none
      schedule := if u.processed + 1 = (u.header.count + 1023) / 1024 then none else some sched
      taken := (r.emits.foldl handOver (blockBase st u x)).taken.map fun v =>
        if v.tid = st.tid then { v with processed := v.processed + 1 } else v }, r.laneChanges) := by
  obtain ⟨hctx, hsched, slot, hfind⟩ := blockBase_finds hu h
  have ht : u.tid = st.tid := by simpa using List.find?_some hu
  obtain ⟨tk, q, hform⟩ := foldl_handOver_form r.emits (blockBase st u x)
  obtain ⟨b, hb, hfindb, hctxb, hschedb, hlive, hfinish⟩ : ∃ b : Stream, b = { blockBase st u x with staging := none } ∧
      findTaken b st.tid = some { u with start := some start, slot := slot } ∧ b.ctx = some c ∧ b.schedule = some sched ∧
      liveStarts b = liveStarts (blockBase st u x) ∧ finishRun r b =
        withWork none (some r.ctx) (blockBase st u x).flushMade (r.emits.foldl handOver (blockBase st u x)) :=
    ⟨_, rfl, hfind, hctx, hsched, rfl, foldl_handOver_withWork none (some r.ctx) (blockBase st u x).flushMade r.emits (blockBase st u x)⟩
  obtain ⟨v, hfindv, hstart, htid, hinfo, hcount, hproc⟩ : ∃ v, findTaken b st.tid = some v ∧ v.start = some start ∧ v.tid = st.tid ∧
      spanInfo v start sched = spanInfo u start sched ∧ blockCount v = (u.header.count + 1023) / 1024 ∧ v.processed = u.processed :=
    ⟨_, hfindb, rfl, ht, rfl, rfl, rfl⟩
  rw [← hlive] at hr
  have hbase := (blockBase_staging st u x).trans hb.symm
  unfold processBlock
  simp only [hu, hbase, hfindv, hctxb, hschedb, hstart, hinfo, ← hr, hfinish, htid, hcount, hproc, hform, withWork,
    onTaken, hsched]

/-! ## The engine's grants (R168, R171) -/

theorem grantEngine_of_block {k : StreamId} {s : State} {st : Staged} {y : Stream} {n : Nat} (hst : (s.stream k).staging = some st)
    (hr : (blockReady (s.stream k) || stoppingReady (s.stream k)) = true) (hp : processBlock st (s.stream k) = (y, n)) :
    grantEngine k s = { s.setStream k y with engine := some { stream := k, laneChanges := n }, engineLast := k } := by
  unfold grantEngine
  simp only [hst, if_pos hr, hp]

theorem grantEngine_of_flush {k : StreamId} {s : State} (hr : (blockReady (s.stream k) || stoppingReady (s.stream k)) = false) :
    grantEngine k s = { s.setStream k (processFlush (s.stream k)) with
      engine := some { stream := k, laneChanges := 0 }, engineLast := k } := by
  unfold grantEngine
  simp only [hr]
  cases (s.stream k).staging <;> rfl

theorem processFlush_eq {x : Stream} {u : Taken} {start : Nat} {ctx : SignalContext} (hu : newestBegun x = some u)
    (hs : u.start = some start) (hc : x.ctx = some ctx) {r : Run} (hr : r = flushClick (start + u.header.count - 1)
      { ctx := ctx, live := liveStarts x, emits := [], laneChanges := 0 }) :
    processFlush x = { r.emits.foldl handOver x with ctx := some r.ctx, flushMade := true } := by
  have hfinish : finishRun r { x with flushMade := true } = withWork x.staging (some r.ctx) true (r.emits.foldl handOver x) :=
    foldl_handOver_withWork x.staging (some r.ctx) true r.emits x
  obtain ⟨tk, q, hform⟩ := foldl_handOver_form r.emits x
  rw [hc] at hfinish
  unfold processFlush
  simp only [hu, hc, hs, ← hr, hfinish, hform, withWork]

/-- Settles O33: `processBlock_eq` for a block, `processFlush_eq` for a flush, the hand-over case by case. -/
theorem grantedBlockRunsStages : Obligations.GrantedBlockRunsStages := by
  unfold Obligations.GrantedBlockRunsStages
  refine ⟨fun s k st u c start sched he hi hk hst hready hu hfinds => ?block, countFetch_counts, fun cfg n => ⟨rfl, fun _ => rfl, ?one, ?three⟩,
    fun cfg n => ⟨?oneVoid, ?threeVoid⟩, fun x span u h => ⟨handOver_container h, handOver_logEntry h, handOver_complete h⟩,
    fun x span h => ⟨fun _ _ => handOver_of_none h, fun _ _ => handOver_of_none h, fun _ => handOver_of_none h⟩,
    fun s k u ctx start he hi hk hb hp hu hs hc => ?flush, fun r y ys h => ⟨fun ht => ?_, fun w hw hsp hl => ?_, fun ht hc => ?_⟩⟩
  case block =>
    intro sp r
    have heq := processBlock_eq (x := s.stream k) (r := r) hu hfinds rfl
    obtain ⟨tk, q, hform⟩ := foldl_handOver_form r.emits (blockBase st u (s.stream k))
    obtain ⟨tk', c', s0, s1, sch, hbase⟩ := blockBase_form st u (s.stream k)
    have hexec := (exec_engineGrant_of_ready he hi hk).trans (congrArg (fun v => Host.Outcome.next (drain v))
      (grantEngine_of_block hst (by rcases hready with h | h <;> simp [h]) heq))
    refine ⟨_, hexec, fun base handed hb hh => ?_, ?_, ?_, ?_, ?_, ?_, ?_, ?_, ?_⟩
    · have hb' : base = blockBase st u (s.stream k) := hb
      subst hb' hh
      refine ⟨by rw [hform], by rw [hform], rfl⟩
    · rw [hform, hbase]
    · rw [hform, hbase]
    · rw [hform, hbase]
    · rw [hform, hbase]
    · rw [hform, hbase]
    · rw [hform, hbase]
    · show List.map _ (List.map _ _) = _
      rw [List.map_map, ← map_taken_blockBase (g := fun v => (v.addr, v.header, v.marks, v.profile, v.expBefore, v.staged, v.givingBack))
        (fun _ _ _ => rfl) st u,
        ← map_taken_foldl_handOver (g := fun v => (v.addr, v.header, v.marks, v.profile, v.expBefore, v.staged, v.givingBack)) (fun _ _ => rfl) r.emits]
      refine List.map_congr_left fun v _ => ?_
      dsimp only [Function.comp]
      split <;> rfl
    · show List.map _ (List.map _ _) = _
      rw [List.map_map, ← map_taken_blockBase (g := fun v => (v.tid, if v.tid = st.tid then v.processed + 1 else v.processed))
        (fun _ _ _ => rfl) st u,
        ← map_taken_foldl_handOver (g := fun v => (v.tid, if v.tid = st.tid then v.processed + 1 else v.processed)) (fun _ _ => rfl) r.emits]
      refine List.map_congr_left fun v _ => ?_
      dsimp only [Function.comp]
      split <;> rfl
  case one =>
    intro h a ha
    rw [blockRows_one h]
    exact ⟨by rw [List.length_map, laneSamples_length ha], fun i => List.getElem?_map ..⟩
  case three =>
    intro h a b c ha hb hc
    rw [blockRows_three h]
    exact ⟨zipThree_length (laneSamples_length ha) (laneSamples_length hb) (laneSamples_length hc), fun i x y z => zipThree_getElem?⟩
  case oneVoid =>
    intro h
    rw [blockRows_one h]
    exact List.map_replicate
  case threeVoid =>
    intro a b c h row hrow
    rw [blockRows_three h] at hrow
    obtain ⟨x, hx, y, hy, z, hz, e⟩ := mem_zipThree hrow
    exact ⟨x, y, z, e, eq_void_of_mem_failed hx, eq_void_of_mem_failed hy, eq_void_of_mem_failed hz⟩
  case flush =>
    intro r
    have heq := processFlush_eq (r := r) hu hs hc rfl
    have hexec := (exec_engineGrant_of_ready he hi hk).trans (congrArg (fun v => Host.Outcome.next (drain v))
      (grantEngine_of_flush (by rw [hb, hp]; rfl)))
    obtain ⟨tk, q, hform⟩ := foldl_handOver_form r.emits (s.stream k)
    refine ⟨processFlush (s.stream k), hexec, heq, ?_, ?_, ?_, ?_, ?_, ?_⟩
    · rw [heq, hform]
    · rw [heq, hform]
    · rw [heq, hform]
    · rw [heq, hform]
    · rw [heq, hform]
    · rw [heq]
      exact map_taken_foldl_handOver (fun _ _ => rfl) r.emits _
  · exact completeRun_of_incomplete h fun hc => ((isComplete_iff r y).1 hc).1 ht
  · exact completeRun_of_incomplete h fun hc => ((isComplete_iff r y).1 hc).2.elim (fun hn => hn w hw hsp) fun hn => hn hl
  · exact completeRun_of_complete h ((isComplete_iff r y).2 ⟨ht, hc⟩)

end Sys2Proof.Machine
end

section
/-! PROOFS. Log entries and window kinds (R72, R85 to R87), and the end of a block (R172, R194). -/

namespace Sys2Proof.Machine

/-! ## Log entries (R85, R87, R157, R158) -/

theorem countWindow_kept (kind : Kind) (y : Tally) : (countWindow kind y).start = y.start ∧
    (countWindow kind y).logWritten = y.logWritten ∧ (countWindow kind y).logLost = y.logLost ∧
    (countWindow kind y).capacity = y.capacity := by
  cases kind <;> exact ⟨rfl, rfl, rfl, rfl⟩

/-- The count of the window's kind rises, and no other. -/
theorem countWindow_counts (kind : Kind) (y : Tally) :
    (countWindow kind y).clickWindows = y.clickWindows + (if kind = .click then 1 else 0) ∧
      (countWindow kind y).voidWindows = y.voidWindows + (if kind = .void then 1 else 0) ∧
      (countWindow kind y).spliceWindows = y.spliceWindows + (if kind = .splice then 1 else 0) ∧
      (countWindow kind y).protectedWindows = y.protectedWindows + (if kind = .prot then 1 else 0) ∧
      (countWindow kind y).longWindows = y.longWindows + (if kind = .long then 1 else 0) := by
  cases kind <;> exact ⟨rfl, rfl, rfl, rfl, rfl⟩

/-- The hand-over of a log entry for a span whose tallies are there: into the next slot, or lost. -/
theorem handEntry_of_find {span start length : Nat} {kind : Kind} {c : Content} {r : Run} {y : Tally}
    (h : r.ctx.tallies.find? (fun u => decide (u.start = span)) = some y) :
    handEntry span start length kind c r = if y.logWritten < y.capacity then
      emitRun (.logEntry span y.logWritten (logEntryBytes (start - span) length kind c))
        (tallyRun span (fun t => { t with logWritten := t.logWritten + 1 }) (tallyRun span (countWindow kind) r))
    else tallyRun span (fun t => { t with logLost := t.logLost + 1 }) (tallyRun span (countWindow kind) r) := by
  obtain ⟨-, hw, -, hcap⟩ := countWindow_kept kind y
  have hf : (tallyRun span (countWindow kind) r).ctx.tallies.find? (fun t => decide (t.start = span)) = some (countWindow kind y) :=
    find_onTally span _ (fun t => (countWindow_kept kind t).1) _ _ h
  unfold handEntry
  simp only [hf, hw, hcap]

/-- The span's tallies after two changes that keep their first position. -/
theorem find_tallyRun_tallyRun {span : Nat} {f g : Tally → Tally} (hf : ∀ t, (f t).start = t.start) (hg : ∀ t, (g t).start = t.start)
    {r : Run} {y : Tally} (h : r.ctx.tallies.find? (fun u => decide (u.start = span)) = some y) :
    (tallyRun span g (tallyRun span f r)).ctx.tallies.find? (fun u => decide (u.start = span)) = some (g (f y)) :=
  find_onTally span g hg _ _ (find_onTally span f hf _ _ h)

/-! ## Window content and kind (R72, R86) -/

/-- A mark of a window's content is set by a sample that carries it. -/
theorem foldl_addContent_mark {π : Content → Bool} {ρ : Held → Bool} (h : ∀ c x, π (addContent c x) = (π c || ρ x)) (hs : List Held)
    (c : Content) : π (hs.foldl addContent c) = (π c || hs.any ρ) := by
  induction hs generalizing c with
  | nil => simp
  | cons x hs ih => rw [List.foldl_cons, ih, h, List.any_cons, Bool.or_assoc]

theorem gathered_mark_iff {π : Content → Bool} {ρ : Held → Bool} (h : ∀ c x, π (addContent c x) = (π c || ρ x))
    (h0 : π emptyContent = false) (hs : List Held) : π (hs.foldl addContent emptyContent) = true ↔ ∃ x ∈ hs, ρ x = true := by
  rw [foldl_addContent_mark h, h0, Bool.false_or, List.any_eq_true]

theorem foldl_addContent_voids (hs : List Held) (c : Content) :
    (hs.foldl addContent c).voids = c.voids + hs.countP fun h => isVoid h.u := by
  induction hs generalizing c with
  | nil => rfl
  | cons x hs ih =>
      rw [List.foldl_cons, ih, List.countP_cons]
      show (if isVoid x.u then c.voids + 1 else c.voids) + _ = _
      split <;> omega

theorem foldl_addContent_peak (hs : List Held) (c : Content) : c.peak ≤ (hs.foldl addContent c).peak ∧
    (∀ h ∈ hs, ∀ e, h.absE = some e → e ≤ (hs.foldl addContent c).peak) ∧
    ((hs.foldl addContent c).peak = c.peak ∨ ∃ h ∈ hs, h.absE = some (hs.foldl addContent c).peak) := by
  induction hs generalizing c with
  | nil => exact ⟨Nat.le_refl _, by simp, Or.inl rfl⟩
  | cons x hs ih =>
      obtain ⟨hle, hall, hex⟩ := ih (addContent c x)
      have hx : (addContent c x).peak = max c.peak (x.absE.getD 0) := rfl
      rw [List.foldl_cons]
      refine ⟨by omega, fun h hm e he => ?_, ?_⟩
      · rcases List.mem_cons.1 hm with rfl | hm
        · rw [he] at hx
          simp only [Option.getD_some] at hx
          omega
        · exact hall h hm e he
      · rcases hex with hex | ⟨h, hm, he⟩
        · rw [hex, hx]
          cases hxe : x.absE with
          | none => exact Or.inl (by simp)
          | some e =>
              rcases Nat.le_total e c.peak with hl | hl
              · exact Or.inl (by simpa using hl)
              · exact Or.inr ⟨x, by simp, by simpa [hxe] using hl⟩
        · exact Or.inr ⟨h, List.mem_cons_of_mem _ hm, he⟩

theorem windowKind_iff (long : Bool) (c : Content) : (windowKind long c = .prot ↔ c.prot = true) ∧
    (windowKind long c = .long ↔ c.prot = false ∧ long = true) ∧
    (windowKind long c = .splice ↔ c.prot = false ∧ long = false ∧ c.splice = true) ∧
    (windowKind long c = .void ↔ c.prot = false ∧ long = false ∧ c.splice = false ∧ c.voids ≠ 0) := by
  unfold windowKind
  split
  · simp_all
  · split
    · simp_all
    · split
      · simp_all
      · split <;> simp_all

/-- Settles O34: `handEntry_of_find` for the entry, the gathered content for the kind. -/
theorem logEntryPlacedOrLost : Obligations.LogEntryPlacedOrLost := by
  unfold Obligations.LogEntryPlacedOrLost
  refine ⟨fun span start length kind c r y h => ?entry, fun long hs => ?kind⟩
  case entry =>
    obtain ⟨hstart, hw, hlost, hcap⟩ := countWindow_kept kind y
    obtain ⟨h1, h2, h3, h4, h5⟩ := countWindow_counts kind y
    have hk := fun t => (countWindow_kept kind t).1
    rw [handEntry_of_find h]
    by_cases hlt : y.logWritten < y.capacity
    · rw [if_pos hlt]
      exact ⟨_, find_tallyRun_tallyRun (g := fun t => { t with logWritten := t.logWritten + 1 }) hk (fun _ => rfl) h,
        fun _ => ⟨congrArg (· + 1) hw, hlost, rfl⟩, fun hn => absurd hlt (by omega), h1, h2, h3, h4, h5⟩
    · rw [if_neg hlt]
      exact ⟨_, find_tallyRun_tallyRun (g := fun t => { t with logLost := t.logLost + 1 }) hk (fun _ => rfl) h,
        fun hn => absurd hn hlt, fun _ => ⟨hw, congrArg (· + 1) hlost, rfl⟩, h1, h2, h3, h4, h5⟩
  case kind =>
    intro c
    have hprot : c.prot = true ↔ ∃ h ∈ hs, h.prot = true :=
      gathered_mark_iff (π := Content.prot) (ρ := Held.prot) (fun _ _ => rfl) rfl hs
    have hsplice : c.splice = true ↔ ∃ h ∈ hs, h.bump = true :=
      gathered_mark_iff (π := Content.splice) (ρ := Held.bump) (fun _ _ => rfl) rfl hs
    have hscanner : c.scanner = true ↔ ∃ h ∈ hs, (h.u == .void .scanner) = true :=
      gathered_mark_iff (π := Content.scanner) (ρ := fun h => h.u == .void .scanner) (fun _ _ => rfl) rfl hs
    have hfetch : c.fetch = true ↔ ∃ h ∈ hs, (h.u == .void .fetch) = true :=
      gathered_mark_iff (π := Content.fetch) (ρ := fun h => h.u == .void .fetch) (fun _ _ => rfl) rfl hs
    have hun : c.unresolved = true ↔ ∃ h ∈ hs, h.unresolved = true :=
      gathered_mark_iff (π := Content.unresolved) (ρ := Held.unresolved) (fun _ _ => rfl) rfl hs
    have hvoids : c.voids = hs.countP fun h => isVoid h.u := by
      have e := foldl_addContent_voids hs emptyContent
      exact e.trans (Nat.zero_add _)
    obtain ⟨-, hall, hex⟩ := foldl_addContent_peak hs emptyContent
    have hnp : c.prot = false ↔ ∀ h ∈ hs, h.prot = false := by
      rw [← Bool.not_eq_true, hprot]; simp
    have hns : c.splice = false ↔ ∀ h ∈ hs, h.bump = false := by
      rw [← Bool.not_eq_true, hsplice]; simp
    have hnv : c.voids ≠ 0 ↔ ∃ h ∈ hs, isVoid h.u = true := by
      rw [hvoids, Ne, List.countP_eq_zero]; simp
    obtain ⟨k1, k2, k3, k4⟩ := windowKind_iff long c
    refine ⟨k1.trans hprot, by rw [k2, hnp], by rw [k3, hnp, hsplice], by rw [k4, hnp, hns, hnv], hvoids, ?_, ?_, hun, hall, hex⟩
    · simpa using hscanner
    · simpa using hfetch

/-! ## The end of a block (R172, R194) -/

theorem signalTimes_eq (n : Nat) (c : Cause) (s : State) : signalTimes n c s = if n = 0 then s else signal c s := by
  induction n generalizing s with
  | zero => rfl
  | succ n ih =>
      rw [if_neg (Nat.succ_ne_zero n)]
      show signalTimes n c (signal c s) = _
      rw [ih]
      split
      · rfl
      · rcases signal_cases c (signal c s) with ⟨_, h⟩ | ⟨h, _⟩
        · exact h
        · rw [latched_signal] at h
          simp at h

theorem latched_settleStop {d : Cause} (hd : d ≠ .stopped) (k : StreamId) (s : State) :
    latched (settleStop k s).evlatch d = latched s.evlatch d := by
  rcases settleStop_cases k s with h | ⟨_, _, _, ⟨_, h⟩ | ⟨_, h⟩⟩ <;> rw [h]
  · rw [enterStopped, latched_signal, decide_eq_false hd, Bool.or_false]; rfl
  · rfl

theorem exec_blockEnd {s : State} {e : Serving} (h : s.engine = some e) : exec .blockEnd s = .next (drain (afterBlock e.stream
    (if e.laneChanges = 0 then { s with engine := none } else signal .laneChange { s with engine := none }))) := by
  show execBlockEnd s = _
  rw [execBlockEnd, h]
  dsimp only
  rw [signalTimes_eq]

theorem works_afterBlock (k : StreamId) (s : State) : Works .signals k s (afterBlock k s) := by
  unfold afterBlock
  split
  · exact works_awaitIfVoted k s
  · exact works_settleStop k s (by simp)
  · exact .refl

theorem giveBackUnbegun_takes (x : Stream) : (giveBackUnbegun x).takes = x.takes := by
  unfold giveBackUnbegun
  split <;> rfl

/-- What stands of every stream's record through a block end. -/
theorem afterBlock_keeps (k : StreamId) (m : State) :
    let x := m.stream k
    let y := (afterBlock k m).stream k
    y.slot0 = x.slot0 ∧ y.slot1 = x.slot1 ∧ y.counters = x.counters ∧ y.progressAddr = x.progressAddr ∧
      y.failing = x.failing ∧ y.ctx = x.ctx ∧ y.schedule = x.schedule ∧ y.takes = x.takes ∧
      (y.taken.map fun u => (u.tid, u.start, u.processed)) = (x.taken.map fun u => (u.tid, u.start, u.processed)) := by
  intro x y
  have hsettle : afterBlock k m = settleStop k m ∨ afterBlock k m = awaitIfVoted k m ∨ afterBlock k m = m := by
    unfold afterBlock
    split
    · exact Or.inr (Or.inl rfl)
    · exact Or.inl rfl
    · exact Or.inr (Or.inr rfl)
  rcases hsettle with h | h | h
  · rcases settleStop_cases k m with e | ⟨_, _, _, ⟨_, e⟩ | ⟨hne, e⟩⟩
    · have hy : y = x := by show (afterBlock k m).stream k = _; rw [h, e]
      rw [hy]; exact ⟨rfl, rfl, rfl, rfl, rfl, rfl, rfl, rfl, rfl⟩
    · have hy : y = enterRest k .stopped { x with position := stopPosition x } := by
        show (afterBlock k m).stream k = _
        rw [h, e, enterStopped_self, onStream_self]
      rw [hy]; refine ⟨?_, ?_, ?_, ?_, ?_, ?_, ?_, ?_, ?_⟩ <;> simp
    · have hy : y = giveBackUnbegun x := by
        show (afterBlock k m).stream k = _
        rw [h, e, onStream_self]
      obtain ⟨ht, hh, -, -, -, hp, hf, -⟩ := giveBackUnbegun_kept x
      rw [hy]
      exact ⟨hh.slot0, hh.slot1, hh.counters, hp, hf, hh.ctx, hh.schedule, giveBackUnbegun_takes x,
        by rw [ht, map_allGivenBack _ fun _ => rfl]⟩
  · obtain ⟨q, o, e⟩ := awaitIfVoted_form k m
    have hy : y = _ := (congrArg (fun v => State.stream v k) h).trans e
    rw [hy]; exact ⟨rfl, rfl, rfl, rfl, rfl, rfl, rfl, rfl, rfl⟩
  · have hy : y = x := by show (afterBlock k m).stream k = _; rw [h]
    rw [hy]; exact ⟨rfl, rfl, rfl, rfl, rfl, rfl, rfl, rfl, rfl⟩

theorem afterBlock_fetch (k : StreamId) (m : State) : (afterBlock k m).fetch = m.fetch := by
  unfold afterBlock
  split
  · exact awaitIfVoted_fetch k m
  · exact settleStop_fetch k m
  · rfl

theorem latched_afterBlock (k : StreamId) (m : State) :
    latched (afterBlock k m).evlatch .laneChange = latched m.evlatch .laneChange := by
  unfold afterBlock
  split
  · rcases awaitIfVoted_cases k m with e | ⟨_, _, _, e⟩ <;> rw [e]
    rfl
  · exact latched_settleStop (by decide) k m
  · rfl

theorem allVoted_iff (x : Stream) : allVoted x = true ↔ ∀ u ∈ x.taken, u.processed = (u.header.count + 1023) / 1024 := by
  unfold allVoted
  simp only [List.all_eq_true, allProcessed_iff]

/-- The stream at its block end while RUNNING: AWAIT_LINK when every sample taken has been voted (R121). -/
theorem afterBlock_running {k : StreamId} {m : State} (hx : (m.stream k).state = .running) (hserve : serving m k = false) :
    (afterBlock k m).stream k = if allVoted (m.stream k) = true then enterState k .awaitLink (m.stream k) else m.stream k := by
  have h : afterBlock k m = awaitIfVoted k m := by rw [afterBlock, hx]
  rw [h, awaitIfVoted]
  by_cases hv : allVoted (m.stream k) = true
  · rw [if_pos ⟨hx, hserve, hv⟩, if_pos hv, onStream_self]
  · rw [if_neg fun h => hv h.2.2, if_neg hv]

theorem handRecord_owed_of_nil {k : StreamId} {x : Stream} (h : x.owed = []) : (handRecord k x).owed = [] := by
  unfold handRecord
  split
  · exact h
  · rw [if_pos h]; exact h

/-- A block end signals nothing but for stop work (R123). -/
theorem sameEvents_afterBlock {k : StreamId} {m : State} (h : (m.stream k).state ≠ .stopping ∨ fetching m k = true) :
    SameEvents m (afterBlock k m) := by
  unfold afterBlock
  split
  · exact (works_awaitIfVoted k m).sameEvents
  · rw [settleStop_of_idle (h.imp_right Or.inr)]
    exact ⟨rfl, rfl, rfl⟩
  · exact ⟨rfl, rfl, rfl⟩

/-- Settles O35: `afterBlock` by the stream's state. -/
theorem blockEndActsByState : Obligations.BlockEndActsByState := by
  unfold Obligations.BlockEndActsByState
  refine ⟨fun s h => by show execBlockEnd s = _; rw [execBlockEnd, h], fun s e he => ?_⟩
  obtain ⟨k, n⟩ := e
  have hexec := exec_blockEnd he
  dsimp only at hexec ⊢
  obtain ⟨m, hm⟩ : ∃ m : State, m = if n = 0 then { s with engine := none } else signal .laneChange { s with engine := none } := ⟨_, rfl⟩
  rw [← hm] at hexec
  have hmw : Works .signals k { s with engine := none } m := by
    rw [hm]
    split
    · exact .refl
    · exact .signal _ (by simp) .refl
  have hmk : m.stream k = s.stream k := by
    rw [hm]
    split
    · rfl
    · exact signal_stream ..
  have hmf : m.fetch = s.fetch := by rw [hm]; split <;> simp
  have hme : m.engine = none := hmw.engine
  have hserve : serving m k = false := by rw [serving, hme]
  have hfetch : fetching m k = fetching s k := by rw [fetching, fetching, hmf]
  have hw : Works .signals k { s with engine := none } (afterBlock k m) := hmw.trans (works_afterBlock k m)
  obtain ⟨k1, k2, k3, k4, k5, k6, k7, k8, k9⟩ := afterBlock_keeps k m
  rw [hmk] at k1 k2 k3 k4 k5 k6 k7 k8 k9
  have hlatch := latched_afterBlock k m
  refine ⟨_, hexec, by rw [drain_engine, hw.engine], hw.others rfl,
    SameControl.trans (t := { s with engine := none }) ⟨rfl, rfl, rfl, rfl⟩ (hw.sameControl.trans (sameControl_drain _)), hw.status (by simp) ⟨rfl, rfl⟩,
    (drain_cmd _).trans hw.cmd, by rw [drain_fetch, afterBlock_fetch, hmf],
    by rw [drain_stream_slot0, k1], by rw [drain_stream_slot1, k2], by rw [drain_stream_counters, k3],
    by rw [drain_stream_progressAddr, k4], by rw [drain_stream_failing, k5], by rw [drain_stream_ctx, k6],
    by rw [drain_stream_schedule, k7], by rw [drain_stream_takes, k8], by rw [drain_stream_taken, k9],
    fun hn => ?_, fun hn => ?_, fun m' hm' => ?_, fun hx => ⟨fun hy => ?_, fun hy => ?_⟩, fun hx => ?_, fun hx => ?_, fun h1 h2 => ?_⟩
  · rw [drain_evlatch, hlatch, hm, if_neg (by omega), latched_signal]
    simp
  · rw [drain_evlatch, hlatch, hm, if_pos hn]
  · rw [hm'.trans hm.symm]
    refine ⟨fun hx => ?_, fun hx hf => ?_⟩
    · rw [← hmk, ← hfetch] at hx
      exact (sameEvents_afterBlock hx).trans (sameEvents_drain _)
    · have hb : afterBlock k m = settleStop k m := by rw [afterBlock, hmk, hx]
      rw [hb]
      exact stopWorkFollows (hfetch.trans hf) rfl rfl ⟨rfl, rfl, rfl⟩ ⟨rfl, rfl, rfl⟩
  · rw [drain_stream_state] at hy
    have hr := afterBlock_running (m := m) (by rw [hmk]; exact hx) hserve
    rw [drain_apart]
    split at hr
    · rw [hr] at hy; simp [enterState] at hy
    · rw [hr, hmk]
  · rw [drain_stream_state] at hy
    have hr := afterBlock_running (m := m) (by rw [hmk]; exact hx) hserve
    split at hr
    · rw [hmk] at hr
      have hform : ((afterBlock k m).stream k).apart = { (s.stream k).apart with
          state := .awaitLink, owed := ((afterBlock k m).stream k).owed } := by
        obtain ⟨q, o, e⟩ := enterState_form k .awaitLink (s.stream k)
        rw [hr, e]; rfl
      refine ⟨by rw [drain_apart, drain_stream_owed]; exact hform, fun ho => ⟨?_, fun p hp => ?_⟩⟩
      · rw [drain_stream_owed, hr]
        exact handRecord_owed_of_nil ho
      · rw [recordWrite_of_apart (drain_apart k _), hr, enterState, recordWrite_handRecord]
        refine underWay_record ?_
        rw [hr]
        exact recordWrite_mem_handRecord ho hp
    · rw [hr, hmk, hx] at hy; cases hy
  · have hr := afterBlock_running (m := m) (by rw [hmk]; exact hx) hserve
    rw [hmk] at hr
    rw [drain_stream_tag, drain_stream_state, hr]
    by_cases hv : ∀ u ∈ (s.stream k).taken, u.processed = (u.header.count + 1023) / 1024
    · rw [if_pos ((allVoted_iff _).2 hv), if_pos hv]
      simp [enterState]
    · rw [if_neg (mt (allVoted_iff _).1 hv), if_neg hv]
      exact ⟨rfl, hx⟩
  · have hb : afterBlock k m = settleStop k m := by rw [afterBlock, hmk, hx]
    have hst : (m.stream k).state = .stopping := by rw [hmk]; exact hx
    rw [hb]
    refine ⟨fun hf => ?_, fun hf hne => ?_, fun hf hemp => ?_⟩
    · rw [settleStop_of_idle (Or.inr (Or.inr (hfetch.trans hf)))]
      exact ⟨by rw [drain_stream_state, hst], by rw [drain_stream_taken, hmk], by rw [drain_apart, hmk]⟩
    · obtain ⟨ht, -, hs, -⟩ := giveBackUnbegun_kept (m.stream k)
      have e := settleStop_of_held hst hserve (hfetch.trans hf) (by rw [hmk]; exact hne)
      rw [e, drain_stream_state, drain_stream_taken, onStream_self, hs, ht, hmk]
      exact ⟨hx, rfl⟩
    · have hemp' : (m.stream k).taken = [] := by rw [hmk]; exact hemp
      have e := settleStop_stream_of_empty hst hserve (hfetch.trans hf) hemp'
      refine ⟨by rw [drain_stream_state, e]; simp, by rw [drain_stream_tag, e, hmk]; simp, ?_⟩
      rw [drain_evlatch, settleStop_of_empty hst hserve (hfetch.trans hf) hemp']
      exact latched_enterStopped ..
  · have hb : afterBlock k m = m := by
      unfold afterBlock
      rw [hmk]
      split
      · next h => exact absurd h h1
      · next h => exact absurd h h2
      · rfl
    rw [drain_apart, hb, hmk]

end Sys2Proof.Machine
end

section
/-! PROOFS. The rollback (R135 to R139, R164). -/

namespace Sys2Proof.Machine

/-! ## Where a rollback takes its stream (R135, R137) -/

theorem restartSpan_eq_some {x : Stream} {before after : List Taken} {u : Taken} (h : x.taken = before ++ u :: after)
    (hb : ∀ v ∈ before, v.start = none) (hu : u.start ≠ none) : restartSpan x = some u := by
  have hnone : before.find? hasBegun = none :=
    List.find?_eq_none.2 fun v hv hn => (hasBegun_eq_true_iff v).1 hn (hb v hv)
  rw [restartSpan, h, List.find?_append, hnone, Option.none_or, List.find?_cons_of_pos ((hasBegun_eq_true_iff u).2 hu)]

theorem restartSpan_eq_none {x : Stream} (h : ∀ v ∈ x.taken, v.start = none) : restartSpan x = none :=
  List.find?_eq_none.2 fun v hv hn => (hasBegun_eq_true_iff v).1 hn (h v hv)

/-- The checkpoint in the slot that the oldest begun span records. -/
theorem restartCheckpoint_of_slot {x : Stream} {u : Taken} {c : Checkpoint} (hr : restartSpan x = some u)
    (hc : u.slot = some false ∧ x.slot0 = some c ∨ u.slot = some true ∧ x.slot1 = some c) : restartCheckpoint x = some c := by
  unfold restartCheckpoint
  rw [hr]
  rcases hc with ⟨h1, h2⟩ | ⟨h1, h2⟩ <;> simp only [h1, h2]

theorem restartCheckpoint_of_none {x : Stream} (h : restartSpan x = none) : restartCheckpoint x = none := by
  rw [restartCheckpoint, h]

/-- The chain position after a rollback (R137 step 3). -/
def restPosition (x : Stream) : ChainPosition :=
  match oldestBack x with
  | none => x.position
  | some b => .span b.1

/-- The expectation after a rollback (R137 step 3). -/
def restExpected (x : Stream) : Option Seq :=
  match oldestBack x with
  | none => x.chain.expected
  | some b => b.2

theorem rollBack_eq (x : Stream) : rollBack x = { x with
    queue := x.queue ++ rollbackWrites x
    ctx := match restartCheckpoint x with | none => x.ctx | some c => some c.ctx
    slot0 := none, slot1 := none, taken := [], schedule := none, staging := none, halt := none
    position := restPosition x
    chain := { anchor := keptAnchor x.chain, expected := restExpected x, wait := .none, bypass := x.chain.bypass } } := by
  unfold rollBack restPosition restExpected
  dsimp only
  cases oldestBack x <;> rfl

theorem rest_of_restart {x : Stream} {u : Taken} (h : restartSpan x = some u) :
    restPosition x = .span u.addr ∧ restExpected x = u.expBefore := by
  have ho : oldestBack x = some (u.addr, u.expBefore) := by rw [oldestBack, h]
  exact ⟨by rw [restPosition, ho], by rw [restExpected, ho]⟩

theorem takeFailure_of_none {x : Stream} {h : Halt} (hh : x.halt = some h) (ht : h.tid = none) : takeFailure x = some h := by
  rw [takeFailure, hh]
  exact if_pos (by rw [ht]; rfl)

theorem takeFailure_eq_none {x : Stream} (hh : ∀ h, x.halt = some h → h.tid ≠ none) : takeFailure x = none := by
  unfold takeFailure
  split
  · rfl
  · next h e => exact if_neg (by simpa using hh h e)

theorem rest_of_takeFailure {x : Stream} {h : Halt} (hr : restartSpan x = none) (hh : x.halt = some h) (ht : h.tid = none) :
    restPosition x = .span h.addr ∧ restExpected x = h.expBefore := by
  have ho : oldestBack x = some (h.addr, h.expBefore) := by simp only [oldestBack, hr, takeFailure_of_none hh ht]
  exact ⟨by rw [restPosition, ho], by rw [restExpected, ho]⟩

theorem rest_of_unbegun {x : Stream} {u : Taken} {rest : List Taken} (hr : restartSpan x = none)
    (hh : ∀ h, x.halt = some h → h.tid ≠ none) (ht : x.taken = u :: rest) :
    restPosition x = .span u.addr ∧ restExpected x = u.expBefore := by
  have ho : oldestBack x = some (u.addr, u.expBefore) := by simp only [oldestBack, hr, takeFailure_eq_none hh, ht]; rfl
  exact ⟨by rw [restPosition, ho], by rw [restExpected, ho]⟩

theorem rest_of_nothing {x : Stream} (hr : restartSpan x = none) (hh : ∀ h, x.halt = some h → h.tid ≠ none) (ht : x.taken = []) :
    restPosition x = x.position ∧ restExpected x = x.chain.expected := by
  have ho : oldestBack x = none := by simp only [oldestBack, hr, takeFailure_eq_none hh, ht]; rfl
  exact ⟨by rw [restPosition, ho], by rw [restExpected, ho]⟩

/-! ## The writes of a rollback (R137 step 2) -/

/-- POSTED, written by a rollback. -/
def postedBack (u : Taken) : Write :=
  { addr := u.addr, bytes := [1#8, 0#8, 0#8, 0#8], tag := .rollback }

theorem stateWrite_posted (a : Nat) (tag : WriteTag) :
    stateWrite a wordPosted tag = { addr := a, bytes := [1#8, 0#8, 0#8, 0#8], tag := tag } := by
  unfold stateWrite
  congr 1

theorem stateWrite_failed (a : Nat) (tag : WriteTag) :
    stateWrite a wordFailed tag = { addr := a, bytes := [5#8, 0#8, 0#8, 0#8], tag := tag } := by
  unfold stateWrite
  congr 1

theorem stateWrite_released (a : Nat) (tag : WriteTag) :
    stateWrite a wordReleased tag = { addr := a, bytes := [4#8, 0#8, 0#8, 0#8], tag := tag } := by
  unfold stateWrite
  congr 1

theorem spanWrites_of_not_failing {x : Stream} {u : Taken} (h : ∀ g, x.halt = some g → g.tid ≠ some u.tid) :
    spanWrites x u = [postedBack u] := by
  unfold spanWrites
  rw [stateWrite_posted]
  split
  · rfl
  · next g e => exact if_neg (h g e)

theorem spanWrites_of_failing {x : Stream} {u : Taken} {g : Halt} (hx : x.halt = some g) (h : g.tid = some u.tid) :
    spanWrites x u = [{ addr := u.addr + 0x80, bytes := failingReport x g u, tag := .rollback },
      { addr := u.addr, bytes := [5#8, 0#8, 0#8, 0#8], tag := .rollback }] := by
  unfold spanWrites
  rw [hx, stateWrite_failed]
  exact if_pos h

theorem flatMap_spanWrites {x : Stream} {ts : List Taken} (h : ∀ u ∈ ts, ∀ g, x.halt = some g → g.tid ≠ some u.tid) :
    ts.flatMap (spanWrites x) = ts.map postedBack := by
  rw [← List.flatMap_singleton' (ts.map postedBack), List.flatMap_map]
  exact List.flatMap_congr fun u hu => spanWrites_of_not_failing (h u hu)

/-! ## The report of a failing span (R164) -/

theorem failingReport_of_tally {x : Stream} {h : Halt} {t : Taken} {y : Tally} {ctx : SignalContext} (hx : x.ctx = some ctx)
    (ht : t.final = some y ∨ t.final = none ∧ ∃ start, t.start = some start ∧
      ctx.tallies.find? (fun u => decide (u.start = start)) = some y) :
    failingReport x h t = reportBytes h.code h.echo y (liveMask x) (ctx.hiss.th / 256).toNat := by
  have hs : spanTally x t = some y := by
    unfold spanTally
    rcases ht with h | ⟨h, start, h1, h2⟩
    · rw [h]
    · rw [h, h1, hx]; exact h2
  have hth : liveThreshold x = (ctx.hiss.th / 256).toNat := by rw [liveThreshold, hx]
  rw [failingReport, hs, ← hth]

theorem failingReport_of_unbegun {x : Stream} {h : Halt} {t : Taken} (hf : t.final = none) (hs : t.start = none) :
    failingReport x h t = unbegunReport h := by
  have e : spanTally x t = none := by rw [spanTally, hf, hs]
  rw [failingReport, e]

theorem unbegunReport_eq (h : Halt) :
    unbegunReport h = leBytes 4 (completionCode h.code) ++ (leBytes 4 h.echo.toNat ++ List.replicate 120 0#8) := by
  unfold unbegunReport reportBytes
  simp only [List.append_assoc]
  rfl

theorem leNat_replicate_zero (n : Nat) : leNat (List.replicate n 0#8) = 0 := by
  induction n with
  | zero => rfl
  | succ n ih => rw [List.replicate_succ, leNat, ih]; rfl

theorem unbegunReport_counts (h : Halt) : fieldAt (unbegunReport h) 0x08 120 = 0 := by
  rw [unbegunReport_eq]
  exact leNat_replicate_zero 120

/-! ## ROLLBACK -/

theorem rollbackDue_iff (s : State) (k : StreamId) : rollbackDue k s = true ↔
    ((s.stream k).state = .aborting ∨ (s.stream k).state = .halting) ∧ (∀ e, s.engine = some e → e.stream ≠ k) ∧
      (∀ f, s.fetch = some f → f.stream ≠ k) ∧ (s.stream k).queue = [] ∧ ∀ i ∈ s.issued, i.stream ≠ k := by
  have hserve : serving s k = false ↔ ∀ e, s.engine = some e → e.stream ≠ k := by
    unfold serving; cases s.engine <;> simp
  have hfetch : fetching s k = false ↔ ∀ f, s.fetch = some f → f.stream ≠ k := by
    unfold fetching; cases s.fetch <;> simp
  rw [rollbackDue, rollingBack, issuedOf]
  simp only [Bool.and_eq_true, Bool.or_eq_true, beq_iff_eq, Bool.not_eq_true', hserve, hfetch, List.isEmpty_iff, List.filter_eq_nil_iff,
    decide_eq_true_eq, and_assoc]

/-- The state a rollback ends in, and the event it signals (R137). -/
def restState (x : Stream) : StreamState := if x.state = .aborting then .stopped else .halted

def restCause (x : Stream) : Cause := if x.state = .aborting then .stopped else .attention

theorem exec_rollback_of_due {s : State} {k : StreamId} (h : rollbackDue k s = true) : exec (.rollback k) s =
    .next (drain (signal (restCause (s.stream k)) (onStream k (fun x => enterRest k (restState (s.stream k)) (rollBack x)) s))) := by
  show execRollback k s = _
  rw [execRollback, if_pos h]
  have e : ∀ st, onStream k (enterRest k st) (onStream k rollBack s) = onStream k (fun x => enterRest k st (rollBack x)) s := fun st => by
    show (s.setStream k _).setStream k _ = _
    rw [setStream_setStream, onStream_self]
    rfl
  by_cases ha : (s.stream k).state = .aborting
  · rw [restCause, restState, if_pos ha, if_pos ha]
    simp only [if_pos ha, enterStopped, e]
  · rw [restCause, restState, if_neg ha, if_neg ha]
    simp only [if_neg ha, enterHalted, e]

/-- The progress record that a stream has to hand over, with its present content. -/
def recordOf (k : StreamId) (x : Stream) : List Write :=
  match x.progressAddr with
  | none => []
  | some p => [recordWrite k x p]

theorem handRecord_queue_of_nil {k : StreamId} {x : Stream} (h : x.owed = []) : (handRecord k x).queue = x.queue ++ recordOf k x := by
  unfold handRecord recordOf
  cases x.progressAddr with
  | none => simp
  | some p => simp only [if_pos h]; rfl

/-- What a rollback that is due leaves (R137). -/
theorem rollback_outcome {s t : State} {k : StreamId} {u : State} (ht : t = drain u)
    (hu : u = signal (restCause (s.stream k)) (onStream k (fun x => enterRest k (restState (s.stream k)) (rollBack x)) s)) :
    (u.stream k = enterRest k (restState (s.stream k)) (rollBack (s.stream k))) ∧
    (t.stream k).apart = (enterRest k (restState (s.stream k)) (rollBack (s.stream k))).apart ∧
    latched t.evlatch (restCause (s.stream k)) = true ∧ u.issued = s.issued ∧
    OthersKept k s t ∧ SameStatus s t ∧ SameAround s t ∧ t.cmd = s.cmd ∧ t.fetch = s.fetch := by
  have hw : Works .signals k s u := by rw [hu]; exact (Works.stream _ .refl).signal _ (by simp)
  have hk : u.stream k = enterRest k (restState (s.stream k)) (rollBack (s.stream k)) := by
    rw [hu, signal_stream, onStream_self]
  have hf : u.fetch = s.fetch := by rw [hu, signal_fetch]; rfl
  have hl : latched u.evlatch (restCause (s.stream k)) = true := by rw [hu, latched_signal]; simp
  obtain ⟨ho, hs, ha, hc⟩ := hw.signals_frame
  rw [ht]
  exact ⟨hk, by rw [drain_apart, hk], by rw [drain_evlatch, hl], hw.issued, ho, hs, ha, hc, by rw [drain_fetch, hf]⟩

/-- Settles O36: `rollBack_eq` field by field, and the writes and the report case by case. -/
theorem rollbackRestoresAndRests : Obligations.RollbackRestoresAndRests := by
  unfold Obligations.RollbackRestoresAndRests
  refine ⟨fun s k => ⟨fun h => ?notDue, fun h => ?due⟩, fun s k => rollbackDue_iff s k,
    fun x => ⟨fun h => ?noHalt, fun h hx ht => ?atTake, fun h before after t hx ht hl hother => ?inList,
      fun h t y ctx hx ht => failingReport_of_tally hx ht, fun h t hf hs => failingReport_of_unbegun hf hs, fun h => ?report⟩⟩
  case notDue =>
    show execRollback k s = _
    exact if_neg (by simp [h])
  case due =>
    obtain ⟨u, hu⟩ : ∃ u, u = signal (restCause (s.stream k))
      (onStream k (fun x => enterRest k (restState (s.stream k)) (rollBack x)) s) := ⟨_, rfl⟩
    obtain ⟨t, ht⟩ : ∃ t, t = drain u := ⟨_, rfl⟩
    have hexec : exec (.rollback k) s = .next t := by rw [exec_rollback_of_due h, ← hu, ← ht]
    obtain ⟨hk, hap, hl, hi, ho, hs, ha, hc, hf⟩ := rollback_outcome ht hu
    have hq : (s.stream k).queue = [] := ((rollbackDue_iff s k).1 h).2.2.2.1
    have hpos : (t.stream k).position = restPosition (s.stream k) := (Stream.position_of_apart hap :).trans (by simp [rollBack_eq])
    have hexp : (t.stream k).chain.expected = restExpected (s.stream k) :=
      (congrArg Chain.expected (Stream.chain_of_apart hap :)).trans (by simp [rollBack_eq])
    have hctx : (t.stream k).ctx = match restartCheckpoint (s.stream k) with
        | none => (s.stream k).ctx
        | some c => some c.ctx := (Stream.ctx_of_apart hap :).trans (by rw [enterRest_ctx, rollBack_eq])
    have hat : ∀ {p : ChainPosition} {e : Option Seq}, restPosition (s.stream k) = p ∧ restExpected (s.stream k) = e →
        (t.stream k).position = p ∧ (t.stream k).chain.expected = e := fun h => ⟨hpos.trans h.1, hexp.trans h.2⟩
    refine ⟨t, hexec, ?_, ?_, hctx, fun hn => ?_, fun before v after c hb hn hv hslot => ?_, ?_, ?_, ?_, ?_, ?_, ?_, ?_, ?_,
      fun a hanchor => ?_, hl, fun before v after hb hn hv => hat (rest_of_restart (restartSpan_eq_some hb hn hv)),
      fun hn => ⟨fun g hg hgt => hat (rest_of_takeFailure (restartSpan_eq_none hn) hg hgt), fun hg =>
        ⟨fun v rest hv => hat (rest_of_unbegun (restartSpan_eq_none hn) hg hv), fun hv => hat (rest_of_nothing (restartSpan_eq_none hn) hg hv)⟩⟩,
      ⟨u, ht, hi, fun hown => ?_⟩, ho, hs, ha, hc, hf⟩
    · exact (Stream.state_of_apart hap :).trans (enterRest_state ..)
    · exact (Stream.tag_of_apart hap :).trans (by rw [enterRest_tag, rollBack_eq])
    · rw [hctx, restartCheckpoint_of_none (restartSpan_eq_none hn)]
    · rw [hctx, restartCheckpoint_of_slot (restartSpan_eq_some hb hn hv) hslot]
    · exact (Stream.slot0_of_apart hap :).trans (by simp [rollBack_eq])
    · exact (Stream.slot1_of_apart hap :).trans (by simp [rollBack_eq])
    · exact (Stream.taken_of_apart hap :).trans (by simp [rollBack_eq])
    · exact (Stream.failing_of_apart hap :).trans (by simp [rollBack_eq])
    · exact (Stream.counters_of_apart hap :).trans (by simp [rollBack_eq])
    · exact (Stream.skip_of_apart hap :).trans (by simp [rollBack_eq])
    · exact (Stream.openCode_of_apart hap :).trans (by simp [rollBack_eq])
    · exact (congrArg Chain.bypass (Stream.chain_of_apart hap :)).trans (by simp [rollBack_eq])
    · exact (congrArg Chain.anchor (Stream.chain_of_apart hap :)).trans (by simp [rollBack_eq, keptAnchor, hanchor])
    · obtain ⟨y, hy, hyo, hyp, hyq⟩ : ∃ y : Stream, enterRest k (restState (s.stream k)) (rollBack (s.stream k)) = handRecord k y ∧
          y.owed = [] ∧ y.progressAddr = (s.stream k).progressAddr ∧ y.queue = rollbackWrites (s.stream k) := by
        refine ⟨_, rfl, ?_, ?_, ?_⟩ <;> rw [rollBack_eq]
        · exact hown
        · exact (congrArg (· ++ _) hq).trans (List.nil_append _)
      rw [hk, hy, handRecord_queue_of_nil hyo, hyq, recordOf, hyp]
      rcases Option.eq_none_or_eq_some (s.stream k).progressAddr with hp | ⟨p, hp⟩ <;> simp only [hp]
      rw [recordWrite_of_apart hap, hy, recordWrite_handRecord]
  case noHalt =>
    have hno : takeFailure x = none := takeFailure_eq_none fun g hg => by rw [h] at hg; simp at hg
    rw [rollbackWrites, flatMap_spanWrites fun u _ g hg => by rw [h] at hg; simp at hg, hno]
    exact List.append_nil _
  case atTake =>
    rw [rollbackWrites, flatMap_spanWrites fun u _ g hg => by rw [hx] at hg; cases hg; rw [ht]; simp, takeFailure_of_none hx ht]
    dsimp only
    rw [stateWrite_failed]
    rfl
  case inList =>
    have hno : takeFailure x = none := takeFailure_eq_none fun g hg => by rw [hx] at hg; cases hg; rw [ht]; simp
    have hnot : ∀ v ∈ before ++ after, ∀ g, x.halt = some g → g.tid ≠ some v.tid := fun v hv g hg => by
      rw [hx] at hg; cases hg; rw [ht]
      exact fun e => hother v hv (Option.some.inj e).symm
    rw [rollbackWrites, hno, List.append_nil, hl, List.flatMap_append, List.flatMap_cons, spanWrites_of_failing hx ht,
      flatMap_spanWrites fun v hv => hnot v (List.mem_append_left _ hv), flatMap_spanWrites fun v hv => hnot v (List.mem_append_right _ hv)]
    rfl
  case report =>
    obtain ⟨h1, h2, h3, -⟩ := report_layout h.code h.echo (freshTally 0 0 0) 0#3 0
    exact ⟨h1, h2, h3, unbegunReport_counts h⟩

/-! ## A rollback undoes the starts of spans (R135, R136, R139) -/

theorem rollBack_of_restart {x : Stream} {u : Taken} {c : Checkpoint} (hr : restartSpan x = some u)
    (hc : u.slot = some false ∧ x.slot0 = some c ∨ u.slot = some true ∧ x.slot1 = some c) :
    (rollBack x).ctx = some c.ctx ∧ (rollBack x).position = .span u.addr ∧ (rollBack x).chain.expected = u.expBefore ∧
      (rollBack x).taken = [] := by
  obtain ⟨hp, he⟩ := rest_of_restart hr
  rw [rollBack_eq]
  exact ⟨by simp only [restartCheckpoint_of_slot hr hc], hp, he, rfl⟩

/-- The list once a span of it has begun (R133, R135). -/
def begunAt (t : Taken) (p : Nat) (slot : Bool) (ts : List Taken) : List Taken :=
  ts.map fun u => if u.tid = t.tid then { u with start := some p, slot := some slot } else u

theorem begunAt_of_others {t : Taken} {ts : List Taken} (h : ∀ u ∈ ts, u.tid ≠ t.tid) (p : Nat) (slot : Bool) : begunAt t p slot ts = ts :=
  (List.map_congr_left fun u hu => if_neg (h u hu)).trans (List.map_id _)

theorem begunAt_cons_self (t : Taken) (ts : List Taken) (p : Nat) (slot : Bool) :
    begunAt t p slot (t :: ts) = { t with start := some p, slot := some slot } :: begunAt t p slot ts :=
  congrArg (· :: _) (if_pos rfl)

theorem begunAt_cons_other {t u : Taken} (h : u.tid ≠ t.tid) (ts : List Taken) (p : Nat) (slot : Bool) :
    begunAt t p slot (u :: ts) = u :: begunAt t p slot ts :=
  congrArg (· :: _) (if_neg h)

/-- The start of a span: its checkpoint in the lower free slot (R133, R135). -/
theorem beginSpan_begunAt {x : Stream} {ctx : SignalContext} (h : x.ctx = some ctx) (t : Taken) : ∃ p sch,
    beginSpan t x = { x with
      slot0 := if x.slot0.isSome then x.slot0 else some { ctx := ctx, span := t.addr }
      slot1 := if x.slot0.isSome then some { ctx := ctx, span := t.addr } else x.slot1
      ctx := some (startSpan t ctx), schedule := sch, taken := begunAt t p x.slot0.isSome x.taken } :=
  ⟨_, _, beginSpan_eq h t⟩

/-- A stream with two begun spans: the checkpoint of each, in the slot it records. -/
theorem two_begun {x begun both : Stream} {t u : Taken} {rest : List Taken} {ctx mid later : SignalContext}
    (ht : x.taken = t :: u :: rest) (htu : u.tid ≠ t.tid) (hrest : ∀ v ∈ rest, v.tid ≠ t.tid ∧ v.tid ≠ u.tid ∧ v.start = none)
    (hx : x.ctx = some ctx) (hb : x.slot0 = none ∧ begun = { beginSpan t x with ctx := some mid } ∨
      x.slot0 ≠ none ∧ begun = { beginSpan t x with ctx := some mid, slot0 := none })
    (hboth : both = { beginSpan u begun with ctx := some later }) :
    ∃ p p' b, both.taken = { t with start := some p, slot := some b } :: { u with start := some p', slot := some !b } :: rest ∧
      b = x.slot0.isSome ∧ (if b = true then both.slot1 else both.slot0) = some { ctx := ctx, span := t.addr } ∧
      (if b = true then both.slot0 else both.slot1) = some { ctx := mid, span := u.addr } := by
  obtain ⟨p, sch, e⟩ := beginSpan_begunAt hx t
  have hrt : ∀ v ∈ rest, v.tid ≠ t.tid := fun v hv => (hrest v hv).1
  have hru : ∀ v ∈ rest, v.tid ≠ u.tid := fun v hv => (hrest v hv).2.1
  have hut : t.tid ≠ u.tid := fun h => htu h.symm
  have htaken : ∀ b p', begunAt u p' (!b) (begunAt t p b (t :: u :: rest)) =
      { t with start := some p, slot := some b } :: { u with start := some p', slot := some !b } :: rest := fun b p' => by
    rw [begunAt_cons_self, begunAt_cons_other htu, begunAt_of_others hrt, begunAt_cons_other (by exact hut), begunAt_cons_self,
      begunAt_of_others hru]
  rcases hb with ⟨h0, rfl⟩ | ⟨h0, rfl⟩
  · have hs : x.slot0.isSome = false := by rw [h0]; rfl
    obtain ⟨p', sch', e'⟩ := beginSpan_begunAt (x := { beginSpan t x with ctx := some mid }) (ctx := mid) rfl u
    refine ⟨p, p', false, ?_, hs.symm, ?_, ?_⟩
    · rw [hboth, e', e, hs, ht]
      exact htaken false p'
    · rw [hboth, e', e, hs]; rfl
    · rw [hboth, e', e, hs]; rfl
  · have hs : x.slot0.isSome = true := Option.isSome_iff_ne_none.2 h0
    obtain ⟨p', sch', e'⟩ := beginSpan_begunAt (x := { beginSpan t x with ctx := some mid, slot0 := none }) (ctx := mid) rfl u
    refine ⟨p, p', true, ?_, hs.symm, ?_, ?_⟩
    · rw [hboth, e', e, hs, ht]
      exact htaken true p'
    · rw [hboth, e', e, hs]; rfl
    · rw [hboth, e', e, hs]; rfl

/-- Settles O37: `rollBack_of_restart`, the restart checkpoint read off the starts of the spans. -/
theorem rollbackUndoesSpanStart : Obligations.RollbackUndoesSpanStart := by
  unfold Obligations.RollbackUndoesSpanStart
  refine ⟨fun x t rest ctx later ht hs hrest hx => ?one, fun x begun both t u rest ctx mid later ht htu hrest hx hb hboth => ?two,
    fun x h => ?none⟩
  case one =>
    obtain ⟨p, sch, e⟩ := beginSpan_begunAt hx t
    rw [e, ht, begunAt_cons_self, begunAt_of_others fun u hu => (hrest u hu).1]
    refine rollBack_of_restart (u := { t with start := some p, slot := some x.slot0.isSome }) (c := { ctx := ctx, span := t.addr })
      (restartSpan_eq_some (before := []) rfl (by simp) (by simp)) ?_
    cases x.slot0 <;> simp
  case two =>
    obtain ⟨p, p', b, htaken, hbs, hct, hcu⟩ := two_begun ht htu hrest hx hb hboth
    refine ⟨rollBack_of_restart (u := { t with start := some p, slot := some b }) (c := { ctx := ctx, span := t.addr })
      (restartSpan_eq_some (before := []) htaken (by simp) (by simp)) ?_, fun alone halone freed hfreed => ?_⟩
    · cases b
      · exact Or.inl ⟨rfl, hct⟩
      · exact Or.inr ⟨rfl, hct⟩
    · have hkeep : rest.filter (fun v => !decide (v.tid = t.tid)) = rest :=
        List.filter_eq_self.2 fun v hv => by simp [(hrest v hv).1]
      have hat : alone.taken = { u with start := some p', slot := some !b } :: rest := by
        rw [halone]
        show both.taken.filter _ = _
        rw [htaken, List.filter_cons_of_neg (by simp), List.filter_cons_of_pos (by simpa using htu), hkeep]
      have hft : freed.taken = { u with start := some p', slot := some !b } :: rest := by
        rw [hfreed, ← hat]
        split <;> rfl
      obtain ⟨h1, h2, h3, -⟩ := rollBack_of_restart (u := { u with start := some p', slot := some !b })
        (c := { ctx := mid, span := u.addr }) (restartSpan_eq_some (before := []) hft (by simp) (by simp)) (by
          rw [hfreed, halone]
          cases b
          · have h0 : x.slot0 = none := by simpa using hbs.symm
            rw [if_pos h0]
            exact Or.inr ⟨rfl, hcu⟩
          · have h0 : x.slot0 ≠ none := Option.isSome_iff_ne_none.1 hbs.symm
            rw [if_neg h0]
            exact Or.inl ⟨rfl, hcu⟩)
      exact ⟨h1, h2, h3⟩
  case none => rw [rollBack_eq, restartCheckpoint_of_none (restartSpan_eq_none h)]

end Sys2Proof.Machine
end

section
/-! PROOFS. The reports of writes: a take (R147), a finish (R151), a write of a stop (R123), an anchor's release (R152). -/

namespace Sys2Proof.Machine

/-! ## The report of a write (R175) -/

/-- The state once the issued write at `i` has been reported. -/
def unissue (i : Nat) (s : State) : State :=
  { s with issued := s.issued.eraseIdx i }

theorem unissue_stream (i : Nat) (s : State) (j : StreamId) : (unissue i s).stream j = s.stream j := rfl

theorem exec_writeDone_done {s : State} {k : StreamId} {i : Nat} {w : Write} (hi : s.issued[i]? = some { stream := k, write := w }) :
    exec (.writeDone i true) s = .next (drain (onDone k w (unissue i s))) := by
  show execWriteDone i true s = _
  rw [execWriteDone, hi]
  rfl

theorem exec_writeDone_failed {s : State} {k : StreamId} {i : Nat} {w : Write} (hi : s.issued[i]? = some { stream := k, write := w }) :
    exec (.writeDone i false) s = .next (drain (onFailed k w (unissue i s))) := by
  show execWriteDone i false s = _
  rw [execWriteDone, hi]
  rfl

section reported

variable {n : Loudness} {k : StreamId} {i : Nat} {s v : State}

theorem Works.reported (w : Works n k (unissue i s) v) : OthersKept k s (drain v) ∧ SameAround s (drain v) ∧ (drain v).cmd = s.cmd :=
  ⟨w.others rfl, w.around ⟨⟨rfl, rfl, rfl, rfl⟩, ⟨rfl, rfl, rfl⟩, rfl, rfl, rfl⟩, (drain_cmd v).trans w.cmd⟩

theorem Works.reported_status (w : Works n k (unissue i s) v) (hn : n ≠ .faults) : SameStatus s (drain v) :=
  w.status hn ⟨rfl, rfl⟩

theorem Works.reported_events (w : Works .silent k (unissue i s) v) : SameEvents s (drain v) :=
  w.events ⟨rfl, rfl, rfl⟩

end reported

theorem SameHoldings.trans {x y z : Stream} (h : SameHoldings x y) (g : SameHoldings y z) : SameHoldings x z :=
  ⟨g.ctx.trans h.ctx, g.schedule.trans h.schedule, g.slot0.trans h.slot0, g.slot1.trans h.slot1, g.counters.trans h.counters,
    g.progressAddr.trans h.progressAddr, g.openCode.trans h.openCode⟩

/-! ## A take is complete (R147) -/

/-- The span that a take adds to the list. -/
def newTaken (a : Nat) (h : Header) (marks : List Mark) (p : Option Profile) (x : Stream) : Taken :=
  { tid := x.takes, addr := a, header := h, marks := marks, profile := p, expBefore := x.chain.expected
    start := none, slot := none, staged := 0, processed := 0, final := none, givingBack := false }

theorem finishedAnchor_eq_some_iff {c : Chain} {a : Anchor} : finishedAnchor c = some a ↔ c.anchor = some a ∧ a.finished = true := by
  unfold finishedAnchor
  cases c.anchor with
  | none => simp
  | some b =>
      simp only [Option.some.injEq]
      constructor
      · intro h
        split at h
        · next hb => cases h; exact ⟨rfl, hb⟩
        · cases h
      · rintro ⟨rfl, hb⟩
        rw [if_pos hb]

theorem finishedAnchor_eq_none {c : Chain} (h : ∀ a, c.anchor = some a → a.finished = false) : finishedAnchor c = none := by
  cases hf : finishedAnchor c with
  | none => rfl
  | some a =>
      obtain ⟨ha, hb⟩ := finishedAnchor_eq_some_iff.1 hf
      rw [h a ha] at hb
      cases hb

/-- The stream that a take leaves, but for its queue and the records it owes. -/
theorem takeStream_form (k : StreamId) (a : Nat) (h : Header) (marks : List Mark) (p : Option Profile) (x : Stream) : ∃ q o,
    takeStream k a h marks p x = { x with
      taken := x.taken ++ [newTaken a h marks p x], takes := x.takes + 1, position := .anchor a
      state := if x.state = .awaitLink then .running else x.state
      chain := { x.chain with
        anchor := some { addr := a, sequence := h.sequence, link := h.link, finished := false }
        expected := some (h.sequence + 1), wait := .none }
      timer := none, readDue := false, pollAgain := false, queue := q, owed := o } ∧
    ∀ c, x.chain.anchor = some c → c.finished = true →
      q = x.queue ++ [{ addr := c.addr, bytes := [4#8, 0#8, 0#8, 0#8], tag := .anchorRelease .take c.sequence }] ∧
      o = if x.state = .awaitLink then x.owed ++ [.running] else x.owed := by
  unfold takeStream
  cases hf : finishedAnchor x.chain with
  | none =>
      have hnone : ∀ c, x.chain.anchor = some c → c.finished = true → False := fun c hc hb => by
        rw [finishedAnchor_eq_some_iff.2 ⟨hc, hb⟩] at hf; cases hf
      by_cases hx : x.state = .awaitLink
      · simp only [hx, beq_self_eq_true, if_true]
        exact ⟨_, _, handRecord_eq k _, fun c hc hb => (hnone c hc hb).elim⟩
      · simp only [beq_false_of_ne hx, if_neg hx, Bool.false_eq_true, if_false]
        exact ⟨_, _, rfl, fun c hc hb => (hnone c hc hb).elim⟩
  | some c =>
      obtain ⟨hc, -⟩ := finishedAnchor_eq_some_iff.1 hf
      by_cases hx : x.state = .awaitLink
      · simp only [hx, beq_self_eq_true, if_true, stateWrite_released]
        exact ⟨_, _, rfl, fun d hd _ => by rw [hc] at hd; cases hd; exact ⟨rfl, rfl⟩⟩
      · simp only [beq_false_of_ne hx, if_neg hx, Bool.false_eq_true, if_false, stateWrite_released]
        exact ⟨_, _, rfl, fun d hd _ => by rw [hc] at hd; cases hd; exact ⟨rfl, rfl⟩⟩

theorem activeDone_eq {k : StreamId} {s : State} {a : Nat} {h : Header} {marks : List Mark} {p : Option Profile}
    (hf : s.fetch = some { stream := k, phase := .active a h marks p }) :
    activeDone k s = settleStop k (onStream k (takeStream k a h marks p) (endFetch s)) := by
  rw [activeDone, hf]
  exact if_pos rfl

/-- The list of a stop once a span taken in STOPPING has been given back. -/
theorem allGivenBack_append_unbegun (ts : List Taken) {u : Taken} (h : u.start = none) :
    allGivenBack (ts ++ [u]) = allGivenBack ts ++ [{ u with givingBack := true }] := by
  unfold allGivenBack
  rw [List.map_append]
  exact congrArg (_ ++ [·]) (if_pos h)

/-- Where a take leaves a STOPPING stream with no block in progress: its span given back (R122, R123 step 4). -/
theorem giveBack_taken {x : Stream} {u : Taken} {ts : List Taken} (ht : x.taken = ts ++ [u]) (hu : u.start = none)
    (hg : u.givingBack = false) (h : ∀ v ∈ ts, v.start ≠ none ∨ v.givingBack = true) :
    (giveBackUnbegun x).position = .span u.addr ∧ (giveBackUnbegun x).chain.expected = u.expBefore := by
  have hfilter : x.taken.filter (fun v => decide (v.start = none) && !v.givingBack) = [u] := by
    have hts : ts.filter (fun v => decide (v.start = none) && !v.givingBack) = [] :=
      List.filter_eq_nil_iff.2 fun v hv => by rcases h v hv with h | h <;> simp [h]
    rw [ht, List.filter_append, hts, List.nil_append, List.filter_cons_of_pos (by simp [hu, hg]), List.filter_nil]
  rw [giveBackUnbegun_of_some hfilter]
  exact ⟨rfl, rfl⟩

/-- Settles O38: `takeStream_form`, and `settleStop` on it in STOPPING. -/
theorem takeCompletesAtActiveWrite : Obligations.TakeCompletesAtActiveWrite := by
  unfold Obligations.TakeCompletesAtActiveWrite
  intro s k i w a h marks p hi hw hf
  obtain ⟨m, hm⟩ : ∃ m, m = onStream k (takeStream k a h marks p) (endFetch (unissue i s)) := ⟨_, rfl⟩
  have hexec : exec (.writeDone i true) s = .next (drain (settleStop k m)) := by
    rw [exec_writeDone_done hi, onDone, hw, hm]
    exact congrArg (fun v => Host.Outcome.next (drain v)) (activeDone_eq hf)
  obtain ⟨q, o, hform, hanchor⟩ := takeStream_form k a h marks p (s.stream k)
  have hmk : m.stream k = takeStream k a h marks p (s.stream k) := by rw [hm, onStream_self, endFetch_stream, unissue_stream]
  rw [hform] at hmk
  have hmf : m.fetch = none := by rw [hm]; rfl
  have hms : serving m k = serving s k := by rw [hm]; rfl
  have hfetch : fetching m k = false := by rw [fetching, hmf]
  have hne : (m.stream k).taken ≠ [] := by rw [hmk]; simp
  have hwm : Works .silent k (unissue i s) m := by rw [hm]; exact (works_endFetch k _).stream _
  have hsame : SameHoldings (s.stream k) (m.stream k) := by rw [hmk]; exact ⟨rfl, rfl, rfl, rfl, rfl, rfl, rfl⟩
  have hrelease : ∀ c, (s.stream k).chain.anchor = some c → c.finished = true →
      UnderWay (drain (settleStop k m)) k { addr := c.addr, bytes := [4#8, 0#8, 0#8, 0#8], tag := .anchorRelease .take c.sequence } := by
    intro c hc hb
    refine underWay_drain_of_mem (mem_settleStop_queue ?_) rfl (by simp)
    rw [hmk, (hanchor c hc hb).1]
    exact List.mem_append_right _ (List.mem_singleton.2 rfl)
  by_cases hstop : (s.stream k).state = .stopping ∧ serving s k = false
  · obtain ⟨hst, hserve⟩ := hstop
    have hst' : (m.stream k).state = .stopping := by rw [hmk]; simp [hst]
    have e := settleStop_of_held hst' (hms.trans hserve) hfetch hne
    have hwork : Works .silent k (unissue i s) (settleStop k m) := by rw [e]; exact hwm.stream _
    obtain ⟨ho, ha, hc⟩ := hwork.reported
    have hk : (settleStop k m).stream k = giveBackUnbegun (m.stream k) := by rw [e, onStream_self]
    obtain ⟨gt, gh, gs, go, gtag, -, gfail, gskip, -, -⟩ := giveBackUnbegun_kept (m.stream k)
    have htaken : (m.stream k).taken = (s.stream k).taken ++ [newTaken a h marks p (s.stream k)] := by rw [hmk]
    refine ⟨_, { newTaken a h marks p (s.stream k) with givingBack := true }, hexec, rfl, rfl, rfl, rfl, rfl, rfl, rfl, rfl, rfl, rfl, rfl,
      ?_, ?_, by rw [drain_fetch, settleStop_fetch, hmf], ?_, ?_, ?_, ho, hwork.reported_status (by simp), hwork.reported_events, ha, hc,
      fun hn => absurd hst hn, fun c hc hb => ⟨hrelease c hc hb, ?_⟩, fun _ _ => ⟨rfl, ?_, ?_, fun hall => ⟨?_, ?_, ?_⟩⟩,
      fun _ hs => by rw [hserve] at hs; cases hs⟩
    · rw [drain_stream_takes, hk, giveBackUnbegun_takes, hmk]
    · rw [drain_stream_tag, hk, gtag, hmk]
    · refine (hsame.trans gh).trans (sameHoldings_of_apart ?_)
      rw [drain_apart, hk]
    · rw [drain_stream_failing, hk, gfail, hmk]
    · rw [drain_stream_skip, hk, gskip, hmk]
    · rw [drain_stream_owed, hk, go, hmk, (hanchor c hc hb).2]
    · rw [drain_stream_state, hk, gs, hst']
    · rw [drain_stream_taken, hk, gt, htaken, allGivenBack_append_unbegun _ rfl]
    · rw [drain_stream_position, hk, (giveBack_taken htaken rfl rfl hall).1]; rfl
    · rw [drain_stream_chain, hk, (giveBack_taken htaken rfl rfl hall).2]; rfl
    · refine underWay_drain_of_mem ?_ rfl (by simp)
      rw [hk]
      exact posted_mem_giveBackUnbegun (u := newTaken a h marks p (s.stream k)) (by rw [htaken]; simp) rfl rfl
  · have hidle : (m.stream k).state ≠ .stopping ∨ serving m k = true ∨ fetching m k = true := by
      by_cases hst : (s.stream k).state = .stopping
      · exact Or.inr (Or.inl (by rw [hms]; by_contra hn; exact hstop ⟨hst, by simpa using hn⟩))
      · refine Or.inl ?_
        rw [hmk]
        dsimp only
        split
        · simp
        · exact hst
    have e : settleStop k m = m := settleStop_of_idle hidle
    rw [e] at hexec hrelease
    obtain ⟨ho, ha, hc⟩ := hwm.reported
    have hap := drain_apart k m
    rw [hmk] at hap
    refine ⟨_, newTaken a h marks p (s.stream k), hexec, rfl, rfl, rfl, rfl, rfl, rfl, rfl, rfl, rfl, rfl, rfl,
      (Stream.takes_of_apart hap :), (Stream.tag_of_apart hap :), by rw [drain_fetch, hmf], hsame.trans (sameHoldings_of_apart (drain_apart k m)),
      (Stream.failing_of_apart hap :), (Stream.skip_of_apart hap :), ho, hwm.reported_status (by simp), hwm.reported_events, ha, hc,
      fun hn => ⟨rfl, (Stream.taken_of_apart hap :), congrArg Chain.anchor (Stream.chain_of_apart hap :), (Stream.position_of_apart hap :),
        congrArg Chain.expected (Stream.chain_of_apart hap :), (Stream.state_of_apart hap :)⟩,
      fun c hc hb => ⟨hrelease c hc hb, (Stream.owed_of_apart hap :).trans (hanchor c hc hb).2⟩,
      fun h1 h2 => absurd ⟨h1, h2⟩ hstop, fun hst _ => ⟨rfl, (Stream.state_of_apart hap :).trans ?_, (Stream.taken_of_apart hap :)⟩⟩
    simp [hst]

end Sys2Proof.Machine
end

section
/-! PROOFS. A span finishes at its state word, and what a stop's POSTED word does (R136, R151, R188, R195, R196). -/

namespace Sys2Proof.Machine

/-! ## What the stop work keeps (R123) -/

theorem giveBackUnbegun_bypass (x : Stream) : (giveBackUnbegun x).chain.bypass = x.chain.bypass := by
  unfold giveBackUnbegun
  split <;> rfl

theorem settleStop_keeps (k : StreamId) (m : State) : SameHoldings (m.stream k) ((settleStop k m).stream k) ∧
    ((settleStop k m).stream k).failing = (m.stream k).failing ∧ ((settleStop k m).stream k).skip = (m.stream k).skip ∧
    ((settleStop k m).stream k).takes = (m.stream k).takes ∧
    ((settleStop k m).stream k).chain.bypass = (m.stream k).chain.bypass ∧
    (((settleStop k m).stream k).taken.map fun v => (v.tid, v.start)) = (m.stream k).taken.map fun v => (v.tid, v.start) := by
  rcases settleStop_cases k m with e | ⟨_, _, _, ⟨_, e⟩ | ⟨_, e⟩⟩ <;> rw [e]
  · exact ⟨⟨rfl, rfl, rfl, rfl, rfl, rfl, rfl⟩, rfl, rfl, rfl, rfl, rfl⟩
  · rw [enterStopped_self, onStream_self]
    refine ⟨⟨?_, ?_, ?_, ?_, ?_, ?_, ?_⟩, ?_, ?_, ?_, ?_, ?_⟩ <;> simp
  · rw [onStream_self]
    obtain ⟨ht, hh, -, -, -, -, hf, hs, -⟩ := giveBackUnbegun_kept (m.stream k)
    exact ⟨hh, hf, hs, giveBackUnbegun_takes _, giveBackUnbegun_bypass _, by rw [ht, map_allGivenBack _ fun _ => rfl]⟩

/-- The stop work with a span left neither ends the stop nor signals. -/
theorem settleStop_held_outcome {k : StreamId} {m : State} (h1 : (m.stream k).state = .stopping)
    (h : serving m k = true ∨ fetching m k = true ∨ (m.stream k).taken ≠ []) :
    ((settleStop k m).stream k).state = .stopping ∧ ((settleStop k m).stream k).tag = (m.stream k).tag ∧
      Works .silent k m (settleStop k m) := by
  rcases settleStop_cases k m with e | ⟨_, h2, h3, ⟨h4, _⟩ | ⟨_, e⟩⟩
  · rw [e]; exact ⟨h1, rfl, .refl⟩
  · rcases h with h | h | h
    · rw [h] at h2; cases h2
    · rw [h] at h3; cases h3
    · exact absurd h4 h
  · obtain ⟨-, -, hs, -, htag, -⟩ := giveBackUnbegun_kept (m.stream k)
    rw [e]
    exact ⟨by rw [onStream_self, hs, h1], by rw [onStream_self, htag], .stream _ .refl⟩

/-! ## A stop's POSTED word (R122, R123) -/

/-- A stream with a span gone from its list. -/
def dropTaken (tid : Nat) (x : Stream) : Stream :=
  { x with taken := x.taken.filter fun t => !decide (t.tid = tid) }

theorem dropTaken_eq_nil_iff (tid : Nat) (x : Stream) : (dropTaken tid x).taken = [] ↔ ∀ v ∈ x.taken, v.tid = tid := by
  simp [dropTaken, List.filter_eq_nil_iff]

/-- What the report of a POSTED word of a stop does. -/
theorem giveBack_reported {s : State} {k : StreamId} {i : Nat} {w : Write} {tid : Nat}
    (hi : s.issued[i]? = some { stream := k, write := w }) (hw : w.tag = .giveBack tid) : ∃ m : State,
    exec (.writeDone i true) s = .next (drain (settleStop k m)) ∧ m.stream k = dropTaken tid (s.stream k) ∧ m.fetch = s.fetch ∧
      serving m k = serving s k ∧ Works .silent k (unissue i s) m := by
  refine ⟨onStream k (dropTaken tid) (unissue i s), ?_, onStream_self .., rfl, rfl, .stream _ .refl⟩
  rw [exec_writeDone_done hi, onDone, hw]
  rfl

/-! ## The finish of a span (R136, R151, R188) -/

/-- The stream's chain as the state word of a finished span leaves it. -/
def finishChain (u : Taken) (released : Bool) (x : Stream) : Stream :=
  if released then chainAfterReleased u x else chainAfterFinished u x

theorem finishChain_form (u : Taken) (released : Bool) (x : Stream) : finishChain u released x = { x with
    position := (finishChain u released x).position, readDue := (finishChain u released x).readDue
    chain := (finishChain u released x).chain } := by
  unfold finishChain chainAfterReleased chainAfterFinished
  dsimp only
  split
  · split
    · rfl
    · split <;> rfl
  · rfl

/-- The counters as a finished span leaves them (R188). -/
def finishCounters (u : Taken) (released : Bool) (c : Counters) : Counters :=
  if released = true then { lastAddr := u.addr, lastSeq := u.header.sequence, released := c.released + 1
                            samples := c.samples + BitVec.ofNat 64 u.header.count }
  else { c with samples := c.samples + BitVec.ofNat 64 u.header.count }

theorem freeSlot_form (slot : Option Bool) (x : Stream) : freeSlot slot x = { x with
    slot0 := if slot = some false then none else x.slot0, slot1 := if slot = some true then none else x.slot1 } := by
  match slot with
  | none => rfl
  | some false => rfl
  | some true => rfl

/-- A stream whose span has finished, before its progress record is handed over. -/
def finished (u : Taken) (released : Bool) (x : Stream) : Stream :=
  { dropTaken u.tid x with
    position := (finishChain u released x).position, readDue := (finishChain u released x).readDue
    chain := (finishChain u released x).chain
    slot0 := if u.slot = some false then none else x.slot0, slot1 := if u.slot = some true then none else x.slot1
    counters := finishCounters u released x.counters }

theorem finishStream_eq (k : StreamId) (u : Taken) (released : Bool) (x : Stream) :
    finishStream k u released x = handRecord k (finished u released x) := by
  have hform := finishChain_form u released x
  unfold finishStream
  dsimp only
  rw [freeSlot_form]
  cases released with
  | true =>
      rw [if_pos rfl, show chainAfterReleased u x = finishChain u true x from rfl, hform]
      rfl
  | false =>
      rw [if_neg (by simp), show chainAfterFinished u x = finishChain u false x from rfl, hform]
      rfl

theorem finishChain_of_no_bypass {u : Taken} {x : Stream} (h : bypassOf x.chain u.addr = none) : finishChain u true x = x := by
  unfold finishChain chainAfterReleased
  rw [if_pos rfl, h]

theorem finishChain_of_beyond {u : Taken} {x : Stream} {b : Bypass} (h : bypassOf x.chain u.addr = some b)
    (hb : takenBeyond x u.tid = true) : finishChain u true x = { x with chain := dropBypass u.addr x.chain } := by
  unfold finishChain chainAfterReleased
  rw [if_pos rfl, h]
  exact if_pos hb

theorem finishChain_of_bypass {u : Taken} {x : Stream} {b : Bypass} (h : bypassOf x.chain u.addr = some b)
    (hb : takenBeyond x u.tid = false) : finishChain u true x = { x with
      position := .span b.link
      readDue := x.readDue || looksBeyond u x && decide (x.chain.wait = .none)
      chain := { dropBypass u.addr x.chain with
        anchor := none, expected := some (b.sequence + 1), wait := if looksBeyond u x then .state else x.chain.wait } } := by
  unfold finishChain chainAfterReleased
  rw [if_pos rfl, h]
  exact if_neg (by simp [hb])

theorem finishChain_position (u : Taken) (released : Bool) (x : Stream) : (finishChain u released x).position =
    match bypassOf x.chain u.addr with
    | none => x.position
    | some b => if released = true ∧ takenBeyond x u.tid = false then .span b.link else x.position := by
  cases released with
  | false => cases bypassOf x.chain u.addr <;> rfl
  | true =>
      cases hb : bypassOf x.chain u.addr with
      | none => rw [finishChain_of_no_bypass hb]
      | some b =>
          cases ht : takenBeyond x u.tid with
          | true => rw [finishChain_of_beyond hb ht]; rfl
          | false => rw [finishChain_of_bypass hb ht]; rfl

theorem looksBeyond_iff (u : Taken) (x : Stream) : looksBeyond u x = true ↔
    (x.state = .running ∨ x.state = .awaitLink) ∧ x.position = .anchor u.addr := by
  unfold looksBeyond
  rw [Bool.and_eq_true, decide_eq_true_iff]
  refine and_congr_left fun _ => ⟨fun h => ?_, follows_eq_true⟩
  by_contra hn
  rw [follows_eq_false (fun e => hn (Or.inl e)) (fun e => hn (Or.inr e))] at h
  cases h

theorem serving_of_engine {s t : State} {k : StreamId} (h : t.engine = s.engine) : serving t k = serving s k := by
  rw [serving, serving, h]

/-- What the report of a span's state word does. -/
theorem finish_reported {s : State} {k : StreamId} {i : Nat} {w : Write} {u : Taken} {released : Bool}
    (hi : s.issued[i]? = some { stream := k, write := w }) (hw : w.tag = .finish u.tid released)
    (hu : findTaken (s.stream k) u.tid = some u) : ∃ m : State,
    exec (.writeDone i true) s = .next (drain (settleStop k m)) ∧
      m.stream k = handRecord k (finished u released (s.stream k)) ∧ m.fetch = s.fetch ∧ serving m k = serving s k ∧
      Works .signals k (unissue i s) m ∧ (u.header.notify = true → latched m.evlatch .spanNotify = true) := by
  have hstream : (onStream k (finishStream k u released) (unissue i s)).stream k = handRecord k (finished u released (s.stream k)) := by
    rw [onStream_self, finishStream_eq]; rfl
  have hw' : Works .signals k (unissue i s) (notifyIf u.header.notify (onStream k (finishStream k u released) (unissue i s))) :=
    (Works.stream _ .refl).trans (works_notifyIf k _ _ (by simp))
  refine ⟨_, ?_, ?_, ?_, serving_of_engine hw'.engine, hw', fun hn => ?_⟩
  · rw [exec_writeDone_done hi, onDone, hw]
    dsimp only [finishDone]
    rw [unissue_stream, hu]
  · rw [notifyIf]
    split
    · rw [signal_stream, hstream]
    · exact hstream
  · rw [notifyIf]
    split
    · exact signal_fetch ..
    · rfl
  · rw [notifyIf, if_pos hn, latched_signal]
    simp

/-- A span of the list after the first of its name. -/
theorem takenBeyond_iff {x : Stream} {before after : List Taken} {u : Taken} (h : x.taken = before ++ u :: after)
    (hb : ∀ v ∈ before, v.tid ≠ u.tid) : takenBeyond x u.tid = true ↔ ∃ v ∈ after, v.givingBack = false := by
  have hdrop : x.taken.dropWhile (fun t => !decide (t.tid = u.tid)) = u :: after := by
    rw [h, List.dropWhile_append_of_pos fun v hv => by simpa using hb v hv, List.dropWhile_cons_of_neg (by simp)]
  rw [takenBeyond, hdrop]
  simp

/-- The record of a finish shows the stream's new counters and chain position (R189). -/
theorem recordWrite_finished (k : StreamId) (u : Taken) (released : Bool) (x : Stream) (p : Nat) :
    recordWrite k (finished u released x) p = recordWrite k { x with
      counters := finishCounters u released x.counters, position := (finishChain u released x).position } p := rfl

/-- Settles O39: `finished` for the span's finish, `dropTaken` for the POSTED word, and the stop work after each. -/
theorem spanFinishesAtStateWord : Obligations.SpanFinishesAtStateWord := by
  unfold Obligations.SpanFinishesAtStateWord
  refine ⟨fun s k i w tid released u hi hw hu => ?finish, fun s k i w tid hi hw => ?giveBack,
    fun x before after u h hb => takenBeyond_iff h hb⟩
  case finish =>
    obtain rfl : u.tid = tid := by simpa using List.find?_some hu
    obtain ⟨m, hexec, hmk, hmf, hms, hwm, hnotify⟩ := finish_reported hi hw hu
    have hwork : Works .signals k (unissue i s) (settleStop k m) := hwm.trans (works_settleStop k m (by simp))
    obtain ⟨ho, ha, hc⟩ := hwork.reported
    obtain ⟨⟨e1, e2, e3, e4, e5, e6, e7⟩, e8, e9, e10, e11, e12⟩ := settleStop_keeps k m
    have hfm : fetching m k = fetching s k := by rw [fetching, fetching, hmf]
    obtain ⟨x, hx⟩ : ∃ x, x = s.stream k := ⟨_, rfl⟩
    rw [← hx] at hmk ⊢
    have hcounters : ((drain (settleStop k m)).stream k).counters = finishCounters u released x.counters := by
      rw [drain_stream_counters, e5, hmk, handRecord_counters]; rfl
    refine ⟨_, hexec, ?_, ?_, ?_, hcounters, fun hn => ?_, ?_, ?_, ?_, ?_, ?_, ho, hwork.reported_status (by simp), ha,
      by rw [drain_fetch, settleStop_fetch, hmf], hc, fun p hp hown => ⟨?_, fun hst => ?_⟩, fun hst => ?_, fun hst h1 h2 h3 => ?_⟩
    · rw [drain_stream_taken, e12, hmk, handRecord_taken]; rfl
    · rw [drain_stream_slot0, e3, hmk, handRecord_slot0]; rfl
    · rw [drain_stream_slot1, e4, hmk, handRecord_slot1]; rfl
    · rw [drain_evlatch]
      exact (works_settleStop (n := .signals) k m (by simp)).latched _ (hnotify hn)
    · rw [drain_stream_ctx, e1, hmk, handRecord_ctx]; rfl
    · rw [drain_stream_schedule, e2, hmk, handRecord_schedule]; rfl
    · rw [drain_stream_takes, e10, hmk, handRecord_takes]; rfl
    · rw [drain_stream_failing, e8, hmk, handRecord_failing]; rfl
    · rw [drain_stream_skip, e9, hmk, handRecord_skip]; rfl
    · have hrec : ∀ P, P = (finishChain u released x).position → UnderWay (drain (settleStop k m)) k
          (recordWrite k { x with counters := finishCounters u released x.counters, position := P } p) := by
        rintro P rfl
        rw [← recordWrite_finished]
        refine underWay_record (mem_settleStop_queue ?_)
        rw [hmk]
        exact recordWrite_mem_handRecord hown hp
      rw [hcounters]
      exact hrec _ (finishChain_position u released x).symm
    · have hown' : (m.stream k).owed = [] := by rw [hmk]; exact handRecord_owed_of_nil hown
      have hp' : (m.stream k).progressAddr = some p := by rw [hmk, handRecord_progressAddr]; exact hp
      rcases settleStop_cases k m with e | ⟨_, _, _, ⟨_, e⟩ | ⟨_, e⟩⟩
      · rw [e, recordWrite_of_apart (drain_apart k m), hmk, recordWrite_handRecord]
        refine underWay_record ?_
        rw [hmk]
        exact recordWrite_mem_handRecord hown hp
      · have hk : (settleStop k m).stream k = enterRest k .stopped { m.stream k with position := stopPosition (m.stream k) } := by
          rw [e, enterStopped_self, onStream_self]
        rw [recordWrite_of_apart (drain_apart k _), hk, enterRest, recordWrite_handRecord]
        refine underWay_record ?_
        rw [hk]
        exact recordWrite_mem_handRecord hown' hp'
      · have hms' : (m.stream k).state = .stopping := ‹_›
        have hxs : x.state = .stopping := by rw [hmk, handRecord_state] at hms'; exact hms'
        obtain ⟨-, -, hs, -⟩ := giveBackUnbegun_kept (m.stream k)
        have hyst := hst.resolve_left fun h => h hxs
        rw [drain_stream_state, e, onStream_self, hs, hms'] at hyst
        cases hyst
    · have hstate : (m.stream k).state = x.state := by rw [hmk, handRecord_state]; rfl
      have e : settleStop k m = m := settleStop_of_idle (Or.inl (by rw [hstate]; exact hst))
      have hchain : ((drain m).stream k).chain = (finishChain u released x).chain := by
        rw [drain_stream_chain, hmk, handRecord_chain]; rfl
      have hpos : ((drain m).stream k).position = (finishChain u released x).position := by
        rw [drain_stream_position, hmk, handRecord_position]; rfl
      rw [e]
      refine ⟨by rw [drain_stream_state, hstate], by rw [drain_stream_tag, hmk, handRecord_tag]; rfl,
        by rw [drain_stream_staging, hmk, handRecord_staging]; rfl, by rw [drain_stream_taken, hmk, handRecord_taken]; rfl,
        fun hr => ⟨?_, fun link hl => ?_⟩, fun hr hb => ?_, fun b hr hb ht => ?_, fun b hr hb ht => ?_⟩
      · subst hr; exact hpos
      · subst hr hl; exact hchain
      · subst hr
        rw [finishChain_of_no_bypass (bypassOf_eq_none hb)] at hchain hpos
        exact ⟨hchain, hpos⟩
      · subst hr
        rw [finishChain_of_beyond hb ht] at hchain hpos
        exact ⟨hchain, hpos⟩
      · subst hr
        have hrd : ((drain m).stream k).readDue = (finishChain u true x).readDue := by
          rw [drain_stream_readDue, hmk, handRecord_readDue]; rfl
        rw [finishChain_of_bypass hb ht] at hchain hpos hrd
        refine ⟨hpos, by rw [hchain], by rw [hchain], by rw [hchain], by rw [drain_stream_timer, hmk, handRecord_timer]; rfl,
          fun h1 h2 => ?_, fun h => ?_⟩
        · have hlook : looksBeyond u x = true := (looksBeyond_iff u x).2 ⟨h1, h2⟩
          rw [hchain, hrd, hlook]
          exact ⟨rfl, by simp⟩
        · have hlook : looksBeyond u x = false := by
            rw [← Bool.not_eq_true, looksBeyond_iff]
            rintro ⟨h1, h2⟩
            rcases h with h | ⟨h3, h4⟩
            · exact h h2
            · exact h1.elim h3 h4
          rw [hchain, hrd, hlook]
          exact ⟨rfl, by simp⟩
    · have hstate : (m.stream k).state = .stopping := by rw [hmk, handRecord_state]; exact hst
      have htaken : (m.stream k).taken = [] := by
        rw [hmk, handRecord_taken]
        exact (dropTaken_eq_nil_iff u.tid x).2 h3
      have hstop := settleStop_stream_of_empty hstate (hms.trans h1) (hfm.trans h2) htaken
      have hposition : ((drain (settleStop k m)).stream k).position = stopPosition (finished u released x) := by
        rw [drain_stream_position, hstop, enterRest_position]
        show stopPosition (m.stream k) = _
        rw [hmk]
        unfold stopPosition
        rw [handRecord_gaveBack, handRecord_chain, handRecord_position]
      refine ⟨by rw [drain_stream_state, hstop, enterRest_state], ?_, ?_, fun hg hr => ?_, fun b hg hr hb ht => ?_⟩
      · rw [drain_stream_tag, hstop, enterRest_tag]
        show (m.stream k).tag + 1 = _
        rw [hmk, handRecord_tag]; rfl
      · rw [drain_evlatch, settleStop_of_empty hstate (hms.trans h1) (hfm.trans h2) htaken]
        exact latched_enterStopped ..
      · rw [hposition]
        subst hr
        unfold stopPosition
        rw [if_neg (show ¬ (finished u false x).gaveBack = true by rw [show (finished u false x).gaveBack = x.gaveBack from rfl, hg]; simp)]
        rfl
      · rw [hposition]
        subst hr
        unfold stopPosition
        rw [if_neg (show ¬ (finished u true x).gaveBack = true by rw [show (finished u true x).gaveBack = x.gaveBack from rfl, hg]; simp)]
        show (match (finishChain u true x).chain.anchor with
          | some a => if a.finished then .anchor a.addr else (finishChain u true x).position
          | none => (finishChain u true x).position) = ChainPosition.span b.link
        rw [finishChain_of_bypass hb ht]
  case giveBack =>
    obtain ⟨m, hexec, hmk, hmf, hms, hwm⟩ := giveBack_reported hi hw
    have hwork : Works .signals k (unissue i s) (settleStop k m) := hwm.of_silent.trans (works_settleStop k m (by simp))
    obtain ⟨ho, ha, hc⟩ := hwork.reported
    obtain ⟨hh, e8, e9, -, e11, e12⟩ := settleStop_keeps k m
    have hfm : fetching m k = fetching s k := by rw [fetching, fetching, hmf]
    refine ⟨_, hexec, ?_, ?_, ?_, ?_, ?_, ho, hwork.reported_status (by simp), ha, by rw [drain_fetch, settleStop_fetch, hmf], hc,
      fun hst h1 h2 h3 => ?_, fun hst h => ?_, fun hst => ?_⟩
    · rw [drain_stream_taken, e12, hmk]; rfl
    · rw [hmk] at hh
      exact SameHoldings.trans (y := dropTaken tid (s.stream k)) ⟨rfl, rfl, rfl, rfl, rfl, rfl, rfl⟩
        (hh.trans (sameHoldings_of_apart (drain_apart k _)))
    · rw [drain_stream_failing, e8, hmk]; rfl
    · rw [drain_stream_skip, e9, hmk]; rfl
    · rw [drain_stream_chain, e11, hmk]; rfl
    · have hstate : (m.stream k).state = .stopping := by rw [hmk]; exact hst
      have htaken : (m.stream k).taken = [] := by rw [hmk]; exact (dropTaken_eq_nil_iff tid _).2 h3
      have hwf := (stopWorkFollows (s := m) (u := m) (hfm.trans h2) rfl rfl ⟨rfl, rfl, rfl⟩ ⟨rfl, rfl, rfl⟩).1 hstate (hms.trans h1) htaken
      obtain ⟨g1, g2, -, g4, -, g6, -, -, g9, g10⟩ := hwf
      rw [hmk] at g2 g4 g9 g10
      exact ⟨g1, g2, g6, fun p hp hown => g10 p hp hown, congrArg Chain.expected g4, fun hg => g9 (Or.inl hg)⟩
    · have hstate : (m.stream k).state = .stopping := by rw [hmk]; exact hst
      obtain ⟨g1, g2, g3⟩ := settleStop_held_outcome hstate (by
        rw [hms, hfm, hmk]
        refine h.imp_right fun h => h.imp_right fun ⟨v, hv, hne⟩ hnil => hne ((dropTaken_eq_nil_iff tid _).1 hnil v hv))
      refine ⟨by rw [drain_stream_state, g1], by rw [drain_stream_tag, g2, hmk]; rfl, (hwm.trans g3).reported_events⟩
    · have e : settleStop k m = m := settleStop_of_idle (Or.inl (by rw [hmk]; exact hst))
      rw [e]
      exact ⟨by rw [drain_stream_state, hmk]; rfl, by rw [drain_stream_tag, hmk]; rfl, by rw [drain_stream_chain, hmk]; rfl,
        by rw [drain_stream_position, hmk]; rfl, hwm.reported_events⟩

end Sys2Proof.Machine
end

section
/-! PROOFS. The issue of writes: the word of a finishing span (R143, R151, R196), the turn of the streams, the gathering of containers
and the report of a write (R175, R179). -/

namespace Sys2Proof.Machine

/-! ## The word of a finishing span -/

theorem bypassOf_isSome_iff {c : Chain} {a : Nat} : (bypassOf c a).isSome = true ↔ ∃ e ∈ c.bypass, e.preceding = a := by
  unfold bypassOf
  simp

/-- What decides between RELEASED and FINISHED (R151, R196). -/
theorem finishesReleased_iff {x : Stream} {before after : List Taken} {u : Taken} (h : x.taken = before ++ u :: after)
    (hb : ∀ v ∈ before, v.tid ≠ u.tid) : finishesReleased x u.tid = true ↔
      (∃ v ∈ after, v.givingBack = false) ∨ ∃ e ∈ x.chain.bypass, e.preceding = u.addr := by
  have hdrop : x.taken.dropWhile (fun t => !decide (t.tid = u.tid)) = u :: after := by
    rw [h, List.dropWhile_append_of_pos fun v hv => by simpa using hb v hv, List.dropWhile_cons_of_neg (by simp)]
  unfold finishesReleased
  rw [hdrop]
  simp only [Bool.or_eq_true, bypassOf_isSome_iff, List.any_eq_true, Bool.not_eq_true']

theorem resolveFinish_of_finish {x : Stream} {w : Write} {tid : Nat} {b : Bool} (h : w.tag = .finish tid b) :
    resolveFinish x w = stateWrite w.addr (if finishesReleased x tid then wordReleased else wordFinished)
      (.finish tid (finishesReleased x tid)) := by
  unfold resolveFinish
  rw [h]

/-! ## Which write can be issued -/

theorem issuedOf_eq_nil_iff {s : State} {k : StreamId} : issuedOf s k = [] ↔ ∀ i ∈ s.issued, i.stream ≠ k := by
  simp [issuedOf, List.filter_eq_nil_iff]

/-- An ordered write at the front of its queue can be issued when no write of the stream is out and it need not wait. -/
theorem issuable_ordered_iff {s : State} {k : StreamId} {w : Write} {ws : List Write} (hq : (s.stream k).queue = w :: ws)
    (hw : isData w.tag = false) : issuable s k = true ↔ (∀ i ∈ s.issued, i.stream ≠ k) ∧ finishHeld s k w = false := by
  rw [← issuedOf_eq_nil_iff]
  unfold issuable
  rw [hq]
  simp [hw]

theorem finishHeld_of_finish {s : State} {k : StreamId} {w : Write} {tid : Nat} {b : Bool} (h : w.tag = .finish tid b) :
    finishHeld s k w = true ↔ (finishesReleased (s.stream k) tid = true ∧ readingLink s k w.addr = true) ∨
      ((s.stream k).state = .stopping ∧ newestFinish (s.stream k) w = true ∧
        (mayTake s k = true ∨ owesGiveBack (s.stream k) = true)) := by
  unfold finishHeld
  rw [h]
  simp only [Bool.or_eq_true, Bool.and_eq_true, beq_iff_eq, and_assoc]

/-- What holds a finish word keeps it from being issued. -/
theorem issuable_of_held {s : State} {k : StreamId} {w : Write} {ws : List Write} {tid : Nat} {b : Bool}
    (hq : (s.stream k).queue = w :: ws) (hw : w.tag = .finish tid b) (h : finishHeld s k w = true) : issuable s k = false := by
  rw [← Bool.not_eq_true, issuable_ordered_iff hq (by rw [hw]; rfl), h]
  simp

/-- Issuing an ordered write takes it alone from its queue. -/
theorem issueOne_ordered {s : State} {k : StreamId} {w : Write} {ws : List Write} (hq : (s.stream k).queue = w :: ws)
    (hw : isData w.tag = false) : issueOne k s = { onStream k (fun x => { x with queue := ws }) s with
      issued := s.issued ++ [{ stream := k, write := resolveFinish (s.stream k) w }], writeLast := k } := by
  rcases issueOne_cases k s with ⟨hn, -⟩ | ⟨v, rest, hv, he⟩
  · rw [hn] at hq; cases hq
  · obtain ⟨rfl, rfl⟩ := List.cons.inj (hq.symm.trans hv)
    rw [he, gather_ordered w ws hw]

/-- Settles O40: `finishesReleased_iff` for the value, `finishHeld_of_finish` for what holds its issue. -/
theorem finishWordChosenWhenIssued : Obligations.FinishWordChosenWhenIssued := by
  unfold Obligations.FinishWordChosenWhenIssued
  refine ⟨fun x w u b before after hw ht hb => ⟨fun h => ?released, fun h1 h2 => ?finished⟩,
    fun s k w ws tid b hq hw => ⟨fun whole stale hf hr => ?link, fun n hst hn htid h => ?stopping, fun hh hi => ?free⟩,
    fun s k a tid i hi hk hw ha hp hr => ?asks⟩
  case released =>
    rw [resolveFinish_of_finish hw, (finishesReleased_iff ht hb).2 h]
    rfl
  case finished =>
    have hn : finishesReleased x u.tid = false := by
      rw [← Bool.not_eq_true, finishesReleased_iff ht hb]
      rintro (⟨v, hv, h⟩ | ⟨e, he, h⟩)
      · rw [h1 v hv] at h; simp at h
      · exact h2 e he h
    rw [resolveFinish_of_finish hw, hn]
    rfl
  case link =>
    exact issuable_of_held hq hw ((finishHeld_of_finish hw).2 (Or.inl ⟨hr, by simp [readingLink, hf]⟩))
  case stopping =>
    refine issuable_of_held hq hw ((finishHeld_of_finish hw).2 (Or.inr ⟨hst, newestFinish_eq_true_iff.2 ⟨n, b, hn, by rw [hw, htid]⟩, ?_⟩))
    rcases h with ⟨v, hv, hs, hg⟩ | ⟨a, hf⟩ | ⟨a, hd, hf⟩ | ⟨a, hd, marks, hf⟩ | ⟨a, hd, marks, p, hf⟩
    · exact Or.inr (List.any_eq_true.2 ⟨v, hv, by simp [hasBegun, hs, hg]⟩)
    all_goals exact Or.inl (by simp [mayTake, hf])
  case free =>
    have hd : isData w.tag = false := by rw [hw]; rfl
    refine ⟨(issuable_ordered_iff hq hd).2 ⟨hi, hh⟩, ?_, ?_⟩
    · rw [issueOne_ordered hq hd]
    · rw [issueOne_ordered hq hd]
      exact (congrArg Stream.queue (onStream_self k (fun x => { x with queue := ws }) s) :)
  case asks =>
    rcases (requests_iff s k).1 hr with h | h | ⟨-, h⟩
    · exact Or.inl h
    · exact Or.inr h
    · exact absurd ha ((anchorLeaving_eq_false_iff s k).1 h a tid i hp hi hk hw)

/-! ## Gathering (R175) -/

theorem joins_eq_true_iff {w v : Write} : joins w v = true ↔ ∃ tid, w.tag = .container tid ∧ v.tag = .container tid ∧
    v.addr = w.addr + w.bytes.length ∧ w.bytes.length + v.bytes.length ≤ 256 ∧
    w.addr / 4096 = (v.addr + v.bytes.length - 1) / 4096 := by
  unfold joins
  split
  · next t u h1 h2 =>
      simp only [h1, h2, Bool.and_eq_true, decide_eq_true_eq, WriteTag.container.injEq, and_assoc]
      constructor
      · rintro ⟨rfl, h⟩; exact ⟨t, rfl, rfl, h⟩
      · rintro ⟨_, rfl, rfl, h⟩; exact ⟨rfl, h⟩
  · next h =>
      refine ⟨fun h => by simp at h, ?_⟩
      rintro ⟨tid, h1, h2, -⟩
      exact absurd h2 (h tid tid h1)

theorem gather_cons_of_joins {w v : Write} {ws : List Write} (h : joins w v = true) :
    gather w (v :: ws) = gather { w with bytes := w.bytes ++ v.bytes } ws := by
  rw [gather, if_pos h]

theorem gather_cons_of_not_joins {w v : Write} {ws : List Write} (h : joins w v = false) : gather w (v :: ws) = (w, v :: ws) := by
  rw [gather, if_neg (by simp [h])]

/-- The writes that a write gathers: the longest run next in the queue of containers of its span, each where the one before it
ends, within 256 bytes and one 4,096-byte page. -/
theorem gather_joined (w : Write) (ws : List Write) : ∃ joined : List Write, ws = joined ++ (gather w ws).2 ∧
    (gather w ws).1.bytes = w.bytes ++ joined.flatMap Write.bytes ∧
    (∀ (i : Nat) (v : Write), joined[i]? = some v → v.tag = w.tag ∧
      v.addr = w.addr + w.bytes.length + ((joined.take i).flatMap Write.bytes).length) ∧
    (joined ≠ [] → (∃ tid, w.tag = .container tid) ∧ (gather w ws).1.bytes.length ≤ 256 ∧
      w.addr / 4096 = (w.addr + (gather w ws).1.bytes.length - 1) / 4096) ∧
    (∀ v rest, (gather w ws).2 = v :: rest → joins (gather w ws).1 v = false) := by
  induction ws generalizing w with
  | nil => exact ⟨[], rfl, by simp [gather], by simp, by simp, by simp [gather]⟩
  | cons v ws ih =>
      cases hj : joins w v with
      | false =>
          rw [gather_cons_of_not_joins hj]
          refine ⟨[], rfl, by simp, by simp, by simp, fun v' rest h => ?_⟩
          obtain ⟨rfl, rfl⟩ := List.cons.inj h
          exact hj
      | true =>
          rw [gather_cons_of_joins hj]
          obtain ⟨tid, hw, hv, haddr, hlen, hpage⟩ := joins_eq_true_iff.1 hj
          obtain ⟨joined, h1, h2, h3, h4, h5⟩ := ih { w with bytes := w.bytes ++ v.bytes }
          refine ⟨v :: joined, by rw [List.cons_append, ← h1], by rw [h2]; simp, fun i u hu => ?_, fun _ => ⟨⟨tid, hw⟩, ?_⟩, h5⟩
          · cases i with
            | zero =>
                obtain rfl : v = u := by simpa using hu
                exact ⟨hv.trans hw.symm, by simp [haddr]⟩
            | succ i =>
                obtain ⟨g1, g2⟩ := h3 i u (by simpa using hu)
                refine ⟨g1, g2.trans ?_⟩
                simp only [List.take_succ_cons, List.flatMap_cons, List.length_append]
                omega
          · by_cases hn : joined = []
            · subst hn
              rw [h2]
              simp only [List.flatMap_nil, List.append_nil, List.length_append]
              exact ⟨hlen, by rw [hpage, haddr, Nat.add_assoc]⟩
            · exact (h4 hn).2

/-! ## The turn of the streams -/

/-- With nothing that can be issued left, the drain has ended. -/
theorem drain_idle (s : State) (j : StreamId) : issuable (drain s) j = false := by
  obtain ⟨n, hn⟩ : ∃ n, n = queuedWrites s := ⟨_, rfl⟩
  induction n using Nat.strong_induction_on generalizing s with
  | h n ih =>
      rcases Option.eq_none_or_eq_some (firstAfter s.writeLast (issuable s)) with h | ⟨k, h⟩
      · rw [drain_of_none s h]
        exact firstAfter_none.1 h j
      · rw [drain_step k s h]
        exact ih _ (hn ▸ queuedWrites_issueOne k s (firstAfter_some h)) _ rfl

/-! ## What a failed finish takes from the queue (R179) -/

theorem ofFinish_eq_true_iff {tid : Nat} {g : WriteTag} :
    ofFinish tid g = true ↔ ¬ (g ≠ .report tid ∧ g ≠ .finish tid true ∧ g ≠ .finish tid false) := by
  cases g with
  | report t => simp [ofFinish]
  | finish t b => cases b <;> simp [ofFinish]
  | _ => simp [ofFinish]

/-- A progress record handed over or owed adds at most progress records to the queue. -/
theorem handRecord_queue_progress (k : StreamId) (x : Stream) : ∃ rs : List Write, (handRecord k x).queue = x.queue ++ rs ∧
    ∀ r ∈ rs, r.tag = .progress := by
  unfold handRecord
  cases x.progressAddr with
  | none => exact ⟨[], by simp, by simp⟩
  | some a =>
      dsimp only
      split
      · exact ⟨[recordWrite k x a], rfl, fun r hr => by rw [List.mem_singleton.1 hr]; rfl⟩
      · exact ⟨[], by simp, by simp⟩

theorem ofFinish_not (tid : Nat) : (fun w : Write => !ofFinish tid w.tag) =
    fun w => decide (w.tag ≠ .report tid ∧ w.tag ≠ .finish tid true ∧ w.tag ≠ .finish tid false) := by
  funext w
  rw [Bool.eq_iff_iff, Bool.not_eq_true', ← Bool.not_eq_true, ofFinish_eq_true_iff, not_not, decide_eq_true_eq]

/-- A failed write of a span takes the rest of the span's finish from the queue (R179). -/
theorem failTaken_eq {s : State} {k : StreamId} {tid : Nat} {code : Completion} {u : Taken}
    (hu : findTaken (s.stream k) tid = some u) (hr : recordsFailure (s.stream k).state = true) : failTaken k tid code s =
      onStream k (enterHalting k { addr := u.addr, code := code, tid := some tid, echo := u.header.sequence, expBefore := u.expBefore })
        (onStream k (fun x => { x with queue := x.queue.filter fun w => !ofFinish tid w.tag }) s) := by
  unfold failTaken
  rw [hu]
  exact failSpan_of_records _ _ _ (by rw [onStream_self]; exact hr)

theorem failTaken_of_not_records {s : State} {k : StreamId} {tid : Nat} {code : Completion} {u : Taken}
    (hu : findTaken (s.stream k) tid = some u) (hr : recordsFailure (s.stream k).state = false) : failTaken k tid code s =
      onStream k (fun x => { x with queue := x.queue.filter fun w => !ofFinish tid w.tag }) s := by
  unfold failTaken
  rw [hu]
  exact failSpan_of_not_records _ _ _ (by rw [onStream_self]; exact hr)

theorem resolveFinish_addr (x : Stream) (w : Write) : (resolveFinish x w).addr = w.addr := by
  unfold resolveFinish
  split <;> rfl

/-- Settles O44: `drain_step` for the turn, `gather_joined` for the gathering, `failTaken_eq` for a failed span. -/
theorem writesIssuedInTurnAndGathered : Obligations.WritesIssuedInTurnAndGathered := by
  unfold Obligations.WritesIssuedInTurnAndGathered
  refine ⟨fun s => ⟨drain_idle s, fun h => drain_of_none s (firstAfter_none.2 h), fun j hj => ?turn⟩, fun w ws => ?gather,
    fun s k tid code u hu => ?failed, fun s i ok => ⟨fun hi => ?absent, fun hi => ?reported⟩, fun s k i w hi hw => ?quiet⟩
  case turn =>
    obtain ⟨k, hk⟩ := firstAfter_exists (last := s.writeLast) hj
    have hi : issuable s k = true := firstAfter_some hk
    rcases issueOne_cases k s with ⟨hn, -⟩ | ⟨front, ws, hq, he⟩
    · exact absurd hn (queue_ne_nil_of_issuable k s hi)
    · refine ⟨k, front, _, ws, hi, firstAfter_least hk, hq, rfl, (resolveFinish_addr _ _).trans (gather_addr front ws), ?_, ?_⟩
      · obtain ⟨next, hnext⟩ := drain_issued (issueOne k s)
        rw [drain_step k s hk, hnext, he, List.append_assoc, List.getElem?_append_right (Nat.le_refl _), Nat.sub_self]
        rfl
      · rw [drain_step k s hk, he]
        rfl
  case gather =>
    obtain ⟨joined, h1, h2, h3, h4, h5⟩ := gather_joined w ws
    exact ⟨joined, h1, gather_addr w ws, gather_tag w ws, h2, h3, h4, h5⟩
  case failed =>
    rw [← ofFinish_not]
    cases hr : recordsFailure (s.stream k).state with
    | true =>
        obtain ⟨rs, h1, h2⟩ := handRecord_queue_progress k { endWait { s.stream k with
          queue := (s.stream k).queue.filter fun w => !ofFinish tid w.tag
          failing := some { addr := u.addr, code := code }, skip := none, staging := none
          halt := some { addr := u.addr, code := code, tid := some tid, echo := u.header.sequence, expBefore := u.expBefore } } with
          state := .halting }
        refine ⟨rs, ?_, h2, fun h => by simp at h⟩
        rw [failTaken_eq hu hr, onStream_self, onStream_self]
        exact h1
    | false =>
        refine ⟨[], ?_, by simp, fun _ => rfl⟩
        rw [failTaken_of_not_records hu hr, onStream_self, List.append_nil]
  case absent =>
    show execWriteDone i ok s = _
    unfold execWriteDone
    rw [List.getElem?_eq_none hi]
  case reported =>
    obtain ⟨⟨k, w⟩, hw⟩ : ∃ j, s.issued[i]? = some j := ⟨_, List.getElem?_eq_getElem hi⟩
    cases ok with
    | true =>
        obtain ⟨next, hnext⟩ := drain_issued (onDone k w (unissue i s))
        exact ⟨_, next, exec_writeDone_done hw, hnext.trans (by rw [onDone_issued]; rfl), drain_idle _⟩
    | false =>
        obtain ⟨next, hnext⟩ := drain_issued (onFailed k w (unissue i s))
        exact ⟨_, next, exec_writeDone_failed hw, hnext.trans (by rw [onFailed_issued]; rfl), drain_idle _⟩
  case quiet =>
    have e : onDone k w (unissue i s) = unissue i s := by
      unfold onDone
      rcases hw with ⟨tid, h | h | h⟩ | h | h | h <;> rw [h]
    rw [exec_writeDone_done hi, e]
    rfl

end Sys2Proof.Machine
end

section
/-! PROOFS. Failed writes by what was written (R178, R186). -/

namespace Sys2Proof.Machine

/-! ## A failed write: its DEVSTAT bit and its work -/

/-- The DEVSTAT bit that a failed write sets (R186): none for the data writes. -/
def failBit : WriteTag → Option (BitVec 4)
  | .container _ | .logEntry _ => none
  | .progress => some faultProgress
  | _ => some faultState

/-- The state with the DEVSTAT bit of a failed write set. -/
def setFailBit (k : StreamId) (g : WriteTag) (s : State) : State :=
  match failBit g with
  | none => s
  | some b => setFault b (streamBits k) s

/-- What a failed write does to its stream beside the DEVSTAT bit. -/
def failWork (k : StreamId) (w : Write) (s : State) : State :=
  match w.tag with
  | .container tid | .logEntry tid => failTaken k tid .outputFault s
  | .report tid | .finish tid _ | .giveBack tid => failTaken k tid .stateFault s
  | .active => activeFailed k s
  | .anchorRelease why sequence => onStream k (releaseStream k why w.addr sequence false) s
  | .skipCode | .skipReleased => skipFailed k s
  | .rollback | .progress => s

theorem onFailed_eq (k : StreamId) (w : Write) (s : State) : onFailed k w s = failWork k w (setFailBit k w.tag s) := by
  obtain ⟨addr, bytes, g⟩ := w
  cases g <;> rfl

section bit

variable (k : StreamId) (g : WriteTag) (s : State)

theorem setFailBit_stream (j : StreamId) : (setFailBit k g s).stream j = s.stream j := by
  unfold setFailBit
  split
  · rfl
  · exact setFault_stream ..

theorem setFailBit_fetch : (setFailBit k g s).fetch = s.fetch := by
  unfold setFailBit
  split
  · rfl
  · exact setFault_fetch ..

theorem works_setFailBit : Works .faults k s (setFailBit k g s) := by
  unfold setFailBit
  split
  · exact .refl
  · exact .fault _ rfl .refl

end bit

theorem works_activeFailed {n : Loudness} (k : StreamId) (s : State) : Works n k s (activeFailed k s) := by
  unfold activeFailed
  split
  · split
    · exact works_failTake ..
    · exact .refl
  · exact .refl

theorem works_skipFailed {n : Loudness} (k : StreamId) (s : State) : Works n k s (skipFailed k s) := by
  unfold skipFailed
  split
  · split
    · exact (Works.stream _ .refl).trans (works_failTake ..)
    · exact .refl
  · exact .refl

theorem works_failWork {n : Loudness} (k : StreamId) (w : Write) (s : State) : Works n k s (failWork k w s) := by
  unfold failWork
  cases w.tag with
  | container | logEntry | report | finish | giveBack => exact works_failTaken ..
  | active => exact works_activeFailed k s
  | anchorRelease => exact .stream _ .refl
  | skipCode | skipReleased => exact works_skipFailed k s
  | rollback | progress => exact .refl

/-! ## The failures of a take and of a skip -/

theorem activeFailed_eq {k : StreamId} {s : State} {a : Nat} {h : Header} {marks : List Mark} {p : Option Profile}
    (hf : s.fetch = some { stream := k, phase := .active a h marks p }) :
    activeFailed k s = failTake k a h.sequence .stateFault s := by
  unfold activeFailed
  rw [hf]
  exact if_pos rfl

/-- The queue without the RELEASED word of a skip. -/
def dropSkip (x : Stream) : Stream :=
  { x with queue := x.queue.filter fun w => !decide (w.tag = .skipReleased) }

theorem skipFailed_eq {k : StreamId} {s : State} {a : Nat} {h : Header} (hf : s.fetch = some { stream := k, phase := .skip a h }) :
    skipFailed k s = failTake k a h.sequence .stateFault (onStream k dropSkip s) := by
  unfold skipFailed
  rw [hf]
  exact if_pos rfl

/-- A failed write touches the fetch transaction only as the ACTIVE word of its take or a write of its skip. -/
theorem activeFailed_of_not {k : StreamId} {s : State}
    (h : ∀ a hd marks p, s.fetch ≠ some { stream := k, phase := .active a hd marks p }) : activeFailed k s = s := by
  unfold activeFailed
  split
  · next hf => split
               · next hj => subst hj; exact absurd hf (h _ _ _ _)
               · rfl
  · rfl

theorem skipFailed_of_not {k : StreamId} {s : State} (h : ∀ a hd, s.fetch ≠ some { stream := k, phase := .skip a hd }) :
    skipFailed k s = s := by
  unfold skipFailed
  split
  · next hf => split
               · next hj => subst hj; exact absurd hf (h _ _)
               · rfl
  · rfl

theorem failSpan_fetch (k : StreamId) (h : Halt) (s : State) : (failSpan k h s).fetch = s.fetch := by
  cases hs : recordsFailure (s.stream k).state
  · rw [failSpan_of_not_records k h s hs]
  · rw [failSpan_of_records k h s hs]; rfl

theorem failTaken_fetch (k : StreamId) (tid : Nat) (code : Completion) (s : State) : (failTaken k tid code s).fetch = s.fetch := by
  unfold failTaken
  split
  · rfl
  · exact failSpan_fetch ..

theorem failTaken_halts {k : StreamId} {tid : Nat} {code : Completion} {s : State} {u : Taken}
    (hu : findTaken (s.stream k) tid = some u) (hr : recordsFailure (s.stream k).state = true) :
    HaltsWith (listHalt u code) (s.stream k) ((drain (failTaken k tid code s)).stream k) := by
  have htid : u.tid = tid := by simpa using List.find?_some hu
  have h := enterHalting_halts k (listHalt u code)
    { s.stream k with queue := (s.stream k).queue.filter fun w => !ofFinish tid w.tag }
  refine HaltsWith.of_apart (x := s.stream k) h ?_
  rw [drain_apart, failTaken_eq hu hr, onStream_self, onStream_self, listHalt, htid]

/-- A take's failure that is recorded halts the stream (R125). -/
theorem failTake_halts {k : StreamId} {a : Nat} {echo : Seq} {code : Completion} {s : State}
    (hr : recordsFailure (s.stream k).state = true) :
    HaltsWith (takeHalt a code echo (s.stream k)) (s.stream k) ((drain (failTake k a echo code s)).stream k) := by
  refine HaltsWith.of_apart (enterHalting_halts k (takeHalt a code echo (s.stream k)) (s.stream k)) ?_
  rw [drain_apart, failTake_stream, takeFailed, if_pos hr]

theorem failTake_queue {k : StreamId} {a : Nat} {echo : Seq} {code : Completion} {s : State} {g : WriteTag} (hg : g ≠ .progress)
    (h : ∀ v ∈ (s.stream k).queue, v.tag ≠ g) : ∀ v ∈ ((drain (failTake k a echo code s)).stream k).queue, v.tag ≠ g := by
  intro v hv
  have hv := (drain_queue_suffix k _).subset hv
  rw [failTake_stream, takeFailed] at hv
  split at hv
  · obtain ⟨rs, hq, hrs⟩ := handRecord_queue_progress k { endWait { s.stream k with
      failing := some { addr := a, code := code }, skip := none, staging := none
      halt := some (takeHalt a code echo (s.stream k)) } with state := .halting }
    rcases List.mem_append.1 (hq ▸ hv) with h' | h'
    · exact h v h'
    · rw [hrs v h']; exact hg.symm
  · exact h v hv

/-! ## A failed write while the stream rolls back (R126) -/

/-- A stream but for the records it owes and where it hands them. -/
def withOwed (o : List StreamState) (p : Option Nat) (x : Stream) : Stream :=
  { x with owed := o, progressAddr := p }

/-- After a failed release of an anchor no record waits any longer (log entries 18 and 35). -/
theorem releaseStream_failed_apart (k : StreamId) (why : ReleaseWhy) (a : Nat) (q : Seq) (x : Stream) :
    (releaseStream k why a q false x).apart = (withOwed [] (if why = .close then none else x.progressAddr) x).apart := by
  unfold releaseStream
  cases why <;> (dsimp only; rw [handOwed_eq]; rfl)

theorem failTaken_apart_of_not_records {k : StreamId} {tid : Nat} {code : Completion} {s : State}
    (hr : recordsFailure (s.stream k).state = false) : ((failTaken k tid code s).stream k).apart = (s.stream k).apart := by
  rcases Option.eq_none_or_eq_some (findTaken (s.stream k) tid) with h | ⟨u, h⟩
  · unfold failTaken; rw [h]
  · rw [failTaken_of_not_records h hr, onStream_self]; rfl

theorem activeFailed_apart_of_not_records {k : StreamId} {s : State} (hr : recordsFailure (s.stream k).state = false) :
    ((activeFailed k s).stream k).apart = (s.stream k).apart := by
  unfold activeFailed
  split
  · split
    · rw [failTake_of_not_records hr]; rfl
    · rfl
  · rfl

theorem skipFailed_apart_of_not_records {k : StreamId} {s : State} (hr : recordsFailure (s.stream k).state = false) :
    ((skipFailed k s).stream k).apart = (s.stream k).apart := by
  unfold skipFailed
  split
  · split
    · rw [failTake_of_not_records (by rw [onStream_self]; exact hr), endFetch_stream, onStream_self]; rfl
    · rfl
  · rfl

/-- Nothing of a stream that rolls back changes but for its queue, and, after an anchor's release, the records that wait. -/
theorem failWork_kept_of_not_records {k : StreamId} {w : Write} {s : State} (hr : recordsFailure (s.stream k).state = false) :
    ∃ o p, ((failWork k w s).stream k).apart = (withOwed o p (s.stream k)).apart := by
  unfold failWork
  cases w.tag with
  | container | logEntry | report | finish | giveBack => exact ⟨_, (s.stream k).progressAddr, failTaken_apart_of_not_records hr⟩
  | active => exact ⟨_, (s.stream k).progressAddr, activeFailed_apart_of_not_records hr⟩
  | anchorRelease why q => exact ⟨_, _, by dsimp only; rw [onStream_self]; exact releaseStream_failed_apart ..⟩
  | skipCode | skipReleased => exact ⟨_, (s.stream k).progressAddr, skipFailed_apart_of_not_records hr⟩
  | rollback | progress => exact ⟨(s.stream k).owed, (s.stream k).progressAddr, rfl⟩

/-! ## The obligation -/

section reported

variable {k : StreamId} {i : Nat} {s : State} {w : Write}

/-- The DEVSTAT bit of a failed write, shown with its stream and latched (R186). -/
theorem failed_sets {b : BitVec 4} (hb : failBit w.tag = some b) : ∀ t, t = drain (failWork k w (setFailBit k w.tag (unissue i s))) →
    t.faults = s.faults ||| b ∧ t.lastFault.toNat = k.val ∧ latched t.evlatch .deviceFault = true := by
  rintro t rfl
  have hw : Works .silent k (setFailBit k w.tag (unissue i s)) (failWork k w (setFailBit k w.tag (unissue i s))) := works_failWork ..
  have hset : setFailBit k w.tag (unissue i s) = setFault b (streamBits k) (unissue i s) := by rw [setFailBit, hb]
  have hst := hw.sameStatus (by simp)
  refine ⟨by rw [drain_faults, hst.faults, hset, setFault_faults]; rfl,
    by rw [drain_lastFault, hst.lastFault, hset, setFault_lastFault, toNat_streamBits], ?_⟩
  rw [drain_evlatch]
  exact hw.latched _ (by rw [hset]; exact latched_setFault ..)

/-- A failed data write sets no DEVSTAT bit and signals nothing itself. -/
theorem failed_quiet (hb : failBit w.tag = none) : ∀ t, t = drain (failWork k w (setFailBit k w.tag (unissue i s))) →
    SameStatus s t ∧ SameEvents s t := by
  rintro t rfl
  have hset : setFailBit k w.tag (unissue i s) = unissue i s := by rw [setFailBit, hb]
  rw [hset]
  exact ⟨(works_failWork (n := .silent) k w _).reported_status (by simp), (works_failWork (n := .silent) k w _).reported_events⟩

end reported

theorem failWork_fetch {k : StreamId} {w : Write} {s : State}
    (h1 : w.tag = .active → ∀ a hd marks p, s.fetch ≠ some { stream := k, phase := .active a hd marks p })
    (h2 : w.tag = .skipCode ∨ w.tag = .skipReleased → ∀ a hd, s.fetch ≠ some { stream := k, phase := .skip a hd }) :
    (failWork k w s).fetch = s.fetch := by
  unfold failWork
  cases hw : w.tag with
  | container | logEntry | report | finish | giveBack => exact failTaken_fetch ..
  | active => exact congrArg State.fetch (activeFailed_of_not (h1 hw))
  | anchorRelease => rfl
  | skipCode => exact congrArg State.fetch (skipFailed_of_not (h2 (Or.inl hw)))
  | skipReleased => exact congrArg State.fetch (skipFailed_of_not (h2 (Or.inr hw)))
  | rollback | progress => rfl

theorem failWork_of_active {k : StreamId} {w : Write} {s : State} {a : Nat} {h : Header} {marks : List Mark} {p : Option Profile}
    (hw : w.tag = .active) (hf : s.fetch = some { stream := k, phase := .active a h marks p }) :
    failWork k w s = failTake k a h.sequence .stateFault s := by
  unfold failWork
  rw [hw]
  exact activeFailed_eq hf

theorem failWork_of_skip {k : StreamId} {w : Write} {s : State} {a : Nat} {h : Header}
    (hw : w.tag = .skipCode ∨ w.tag = .skipReleased) (hf : s.fetch = some { stream := k, phase := .skip a h }) :
    failWork k w s = failTake k a h.sequence .stateFault (onStream k dropSkip s) := by
  unfold failWork
  rcases hw with hw | hw <;> (rw [hw]; exact skipFailed_eq hf)

/-- Settles O41: `failWork` beside the DEVSTAT bit, by the kind of the write. -/
theorem failedWritesByKind : Obligations.FailedWritesByKind := by
  unfold Obligations.FailedWritesByKind
  intro s k i w hi
  have hexec : exec (.writeDone i false) s = .next (drain (failWork k w (setFailBit k w.tag (unissue i s)))) := by
    rw [exec_writeDone_failed hi, onFailed_eq]
  have hworks : Works .faults k (unissue i s) (failWork k w (setFailBit k w.tag (unissue i s))) :=
    (works_setFailBit ..).trans (works_failWork ..)
  have hsets : ∀ b, failBit w.tag = some b → _ := fun b hb => failed_sets (k := k) (i := i) (s := s) hb _ rfl
  have hquiet : failBit w.tag = none → _ := fun hb => failed_quiet (k := k) (i := i) (s := s) hb _ rfl
  obtain ⟨ho, ha, hc⟩ := hworks.reported
  obtain ⟨u, hu⟩ : ∃ u, u = setFailBit k w.tag (unissue i s) := ⟨_, rfl⟩
  have huk : u.stream k = s.stream k := by rw [hu, setFailBit_stream]; rfl
  have huf : u.fetch = s.fetch := by rw [hu, setFailBit_fetch]; rfl
  rw [← hu] at hexec hsets hquiet ho ha hc
  clear hworks hu
  refine ⟨_, hexec, ho, ha, hc, fun tid v hv hr => ⟨fun hw => ?data, fun hw => ?span⟩, fun a h marks p hw hf hr => ?active,
    fun a h hw hf hr => ?skip, fun hw => ?progress, fun hw => ?rollback, fun hst => ?rolling, fun why q hw => ?release,
    fun h1 h2 h3 => ?keeps, fun hf => ?others, fun a h marks p hw hf => ?activeEnds, fun a h hw hf => ?skipEnds⟩
  case data =>
    refine ⟨?_, (hquiet (by rcases hw with hw | hw <;> rw [hw] <;> rfl)).1⟩
    have e : failWork k w u = failTaken k tid .outputFault u := by
      unfold failWork
      rcases hw with hw | hw <;> rw [hw]
    rw [e, ← huk]
    exact failTaken_halts (by rw [huk]; exact hv) (by rw [huk]; exact hr)
  case span =>
    refine ⟨?_, hsets _ (by rcases hw with hw | hw | ⟨b, hw⟩ <;> rw [hw] <;> rfl)⟩
    have e : failWork k w u = failTaken k tid .stateFault u := by
      unfold failWork
      rcases hw with hw | hw | ⟨b, hw⟩ <;> rw [hw]
    rw [e, ← huk]
    exact failTaken_halts (by rw [huk]; exact hv) (by rw [huk]; exact hr)
  case active =>
    refine ⟨?_, hsets _ (by rw [hw]; rfl), ?_⟩
    · rw [failWork_of_active hw (huf.trans hf), ← huk]
      exact failTake_halts (by rw [huk]; exact hr)
    · rw [failWork_of_active hw (huf.trans hf), drain_fetch, failTake_fetch]
  case skip =>
    have hk : (onStream k dropSkip u).stream k = dropSkip (s.stream k) := by rw [onStream_self, huk]
    rw [failWork_of_skip hw (huf.trans hf)]
    refine ⟨?_, ?_, ?_, ?_⟩
    · have h' := failTake_halts (a := a) (echo := h.sequence) (code := .stateFault) (s := onStream k dropSkip u) (k := k)
        (by rw [hk]; exact hr)
      rw [hk] at h'
      exact h'
    · rw [← failWork_of_skip hw (huf.trans hf)]
      exact hsets _ (by rcases hw with hw | hw <;> rw [hw] <;> rfl)
    · rw [drain_fetch, failTake_fetch]
    · exact failTake_queue (by simp) (by rw [hk]; intro v hv; simpa using (List.mem_filter.1 hv).2)
  case progress =>
    have e : failWork k w u = u := by unfold failWork; rw [hw]
    refine ⟨by rw [e, drain_apart, huk], hsets _ (by rw [hw]; rfl)⟩
  case rollback =>
    have e : failWork k w u = u := by unfold failWork; rw [hw]
    refine ⟨by rw [e, drain_apart, huk], hsets _ (by rw [hw]; rfl)⟩
  case rolling =>
    obtain ⟨o, p, hap⟩ := failWork_kept_of_not_records (w := w) (s := u) (by rw [huk]; exact recordsFailure_of_rolling hst)
    rw [huk, ← drain_apart] at hap
    refine ⟨(Stream.state_of_apart hap :), (Stream.failing_of_apart hap :), (Stream.halt_of_apart hap :),
      (Stream.taken_of_apart hap :), (Stream.tag_of_apart hap :), (Stream.ctx_of_apart hap :), (Stream.schedule_of_apart hap :),
      (Stream.slot0_of_apart hap :), (Stream.slot1_of_apart hap :), (Stream.counters_of_apart hap :),
      (Stream.position_of_apart hap :), fun tid => ⟨fun hw => hquiet ?_, fun hw => hsets _ ?_⟩, fun hw => hsets _ ?_⟩
    · rcases hw with hw | hw <;> rw [hw] <;> rfl
    · rcases hw with hw | hw | ⟨b, hw⟩ <;> rw [hw] <;> rfl
    · rcases hw with hw | hw | hw <;> rw [hw] <;> rfl
  case release =>
    have hap : ((drain (failWork k w u)).stream k).apart =
        (withOwed [] (if why = .close then none else (s.stream k).progressAddr) (s.stream k)).apart := by
      rw [drain_apart]
      unfold failWork
      rw [hw]
      dsimp only
      rw [onStream_self, releaseStream_failed_apart, huk]
    exact ⟨(Stream.state_of_apart hap :), (Stream.failing_of_apart hap :), (Stream.counters_of_apart hap :),
      (Stream.owed_of_apart hap :), hsets _ (by rw [hw]; rfl)⟩
  case keeps =>
    rw [drain_fetch, failWork_fetch (fun h => absurd h h1) (fun h => absurd h (not_or_intro h2 h3)), huf]
  case others =>
    have hne : ∀ p, u.fetch ≠ some { stream := k, phase := p } := fun p hp => hf _ (huf.symm.trans hp) rfl
    rw [drain_fetch, failWork_fetch (fun _ _ _ _ _ => hne _) (fun _ _ _ => hne _), huf]
  case activeEnds =>
    rw [failWork_of_active hw (huf.trans hf), drain_fetch, failTake_fetch]
  case skipEnds =>
    rw [failWork_of_skip hw (huf.trans hf), drain_fetch, failTake_fetch]

end Sys2Proof.Machine
end

section
/-! PROOFS. The report of a FINISHED anchor's release (R128, R152, R188, R190) and of a skip's RELEASED word (R154, R195). -/

namespace Sys2Proof.Machine

/-! ## An anchor's release is reported -/

/-- The stream once the counters have taken its released anchor (R188). -/
def anchorReleased (a : Nat) (q : Seq) (x : Stream) : Stream :=
  { x with counters := countReleased a q x.counters, chain := dropBypass a x.chain }

/-- The progress record of an event that brought the stream to `st` (R189). -/
def recordOfState (k : StreamId) (x : Stream) (p : Nat) (st : StreamState) : Write :=
  recordWrite k { x with state := st } p

theorem handOwed_of_some {k : StreamId} {x : Stream} {p : Nat} (hp : x.progressAddr = some p) :
    handOwed k x = { x with queue := x.queue ++ x.owed.map (recordOfState k x p), owed := [] } := by
  unfold handOwed
  rw [hp]
  rfl

/-- The states whose records follow an anchor's release (R190): those that waited, and at a take the stream's own. -/
def releaseStates (why : ReleaseWhy) (x : Stream) : List StreamState :=
  x.owed ++ if why = .take then [x.state] else []

theorem releaseStream_eq {k : StreamId} {x : Stream} {p : Nat} (why : ReleaseWhy) (a : Nat) (q : Seq) (hp : x.progressAddr = some p) :
    releaseStream k why a q true x = { anchorReleased a q x with
      queue := x.queue ++ (releaseStates why x).map (recordOfState k (anchorReleased a q x) p)
      owed := [], progressAddr := if why = .close then none else some p } := by
  have hown : handOwed k (anchorReleased a q x) = { anchorReleased a q x with
      queue := x.queue ++ x.owed.map (recordOfState k (anchorReleased a q x) p), owed := [] } := handOwed_of_some hp
  show (match why with
    | .take => handRecord k (handOwed k (anchorReleased a q x))
    | .skip => handOwed k (anchorReleased a q x)
    | .close => { handOwed k (anchorReleased a q x) with progressAddr := none }) = _
  rw [hown]
  cases why with
  | take =>
      show handRecord k _ = _
      unfold handRecord
      rw [show (anchorReleased a q x).progressAddr = some p from hp]
      simp only [releaseStates, if_pos, List.map_append, ← List.append_assoc, List.map_cons, List.map_nil, ← hp]
      rfl
  | skip => simp only [releaseStates]; rw [← hp]; simp; rfl
  | close => simp [releaseStates]

/-- A record that follows an anchor's release. -/
theorem recordOfState_layout (k : StreamId) (a : Nat) (q : Seq) (x : Stream) (p : Nat) (st : StreamState) :
    let r := recordOfState k (anchorReleased a q x) p st
    r.addr = p ∧ r.tag = .progress ∧ r.bytes.length = 64 ∧ fieldAt r.bytes 0x00 1 = stateCode st ∧
      fieldAt r.bytes 0x02 2 = x.tag.toNat ∧ fieldAt r.bytes 0x10 8 = a % 2 ^ 64 ∧ fieldAt r.bytes 0x18 4 = q.toNat ∧
      fieldAt r.bytes 0x1C 4 = (x.counters.released + 1).toNat := by
  obtain ⟨h1, h2, -, h3, -, -, -, -, -, h4, h5, h6, -⟩ := progress_layout k { anchorReleased a q x with state := st }
    (liveMask { anchorReleased a q x with state := st })
  exact ⟨rfl, rfl, h1, h2, h3, h4, h5, h6⟩

/-- Settles O42: `releaseStream_eq` with the records of `releaseStates`; CLOSE by the anchor. -/
theorem anchorReleaseReported : Obligations.AnchorReleaseReported := by
  unfold Obligations.AnchorReleaseReported
  refine ⟨fun s k i w why q p hi hw hp => ?reported, fun k x => ⟨(closeChain_kept k x).1, fun c hc hf => ?finished, fun hn => ?none⟩⟩
  case reported =>
    obtain ⟨x, hx⟩ : ∃ x, x = s.stream k := ⟨_, rfl⟩
    have heq := releaseStream_eq (k := k) why w.addr q (hx ▸ hp)
    refine ⟨releaseStream k why w.addr q true x, (releaseStates why x).map (recordOfState k (anchorReleased w.addr q x) p), ?_, ?_⟩
    · rw [exec_writeDone_done hi, onDone, hw, hx]
      rfl
    · rw [heq, ← hx]
      refine ⟨rfl, rfl, rfl, rfl, rfl, rfl, rfl, rfl, rfl, rfl, ?_, fun j r hr => ?_⟩
      · rw [List.length_map, releaseStates, List.length_append]
        split <;> rfl
      · obtain ⟨st, hst, rfl⟩ : ∃ st, (releaseStates why x)[j]? = some st ∧ recordOfState k (anchorReleased w.addr q x) p st = r := by
          rw [List.getElem?_map] at hr
          exact Option.map_eq_some_iff.1 hr
        have e : (x.owed[j]?).getD x.state = st := by
          unfold releaseStates at hst
          rw [List.getElem?_append] at hst
          split at hst
          · rw [hst]; rfl
          · next hlt =>
              rw [List.getElem?_eq_none (Nat.le_of_not_lt hlt)]
              split at hst
              · exact (List.mem_singleton.1 (List.mem_of_getElem? hst)).symm
              · simp at hst
        rw [e]
        exact recordOfState_layout ..
  case finished =>
    rw [closeChain_of_finished hc hf]
    exact ⟨rfl, rfl, rfl⟩
  case none =>
    rw [closeChain_of_none hn]
    refine ⟨handOwed_owed .., rfl, fun p hp => ⟨x.owed.map (recordOfState k { x with chain := Chain.empty } p), ?_, List.length_map _,
      fun j r st hr hst => ?_⟩⟩
    · rw [handOwed_of_some (x := { x with chain := Chain.empty }) hp]
    · rw [List.getElem?_map, hst] at hr
      obtain rfl := Option.some.inj hr
      exact ⟨rfl, rfl, progressBytes_state ..⟩

end Sys2Proof.Machine
end

section
/-! PROOFS. The report of a skip's RELEASED word (R154, R195). -/

namespace Sys2Proof.Machine

/-! ## The chain after a skip -/

section chain

variable {a : Nat} {h : Header} {c : Chain} {b : Anchor}

/-- A skip moves the expectation on and drops the entry that the skipped span preceded. -/
def pastSkipped (a : Nat) (h : Header) (c : Chain) : Chain :=
  { dropBypass a c with expected := some (h.sequence + 1) }

theorem chainAfterSkip_of_none (hc : c.anchor = none) : chainAfterSkip a h c = pastSkipped a h c := by
  unfold chainAfterSkip
  rw [hc]
  rfl

theorem chainAfterSkip_of_finished (hc : c.anchor = some b) (hb : b.finished = true) :
    chainAfterSkip a h c = { pastSkipped a h c with anchor := none } := by
  unfold chainAfterSkip
  rw [hc]
  exact if_pos hb

theorem chainAfterSkip_of_open (hc : c.anchor = some b) (hb : b.finished = false) :
    chainAfterSkip a h c = recordBypass a h b.addr (pastSkipped a h c) := by
  unfold chainAfterSkip
  rw [hc]
  exact if_neg (by simp [hb])

theorem recordBypass_kept (a : Nat) (h : Header) (p : Nat) (c : Chain) : (recordBypass a h p c).anchor = c.anchor ∧
    (recordBypass a h p c).expected = c.expected := by
  unfold recordBypass
  split <;> exact ⟨rfl, rfl⟩

theorem recordBypass_of_new {p : Nat} (hn : ∀ e ∈ c.bypass, e.preceding ≠ p) : (recordBypass a h p c).bypass =
    c.bypass ++ [{ skipped := a, sequence := h.sequence, link := h.link, preceding := p }] := by
  unfold recordBypass
  rw [bypassOf_eq_none hn]

theorem recordBypass_of_known {p : Nat} (hn : ∃ e ∈ c.bypass, e.preceding = p) : (recordBypass a h p c).bypass =
    c.bypass.map fun e => if e.preceding = p then { e with sequence := h.sequence, link := h.link } else e := by
  obtain ⟨e, he⟩ := Option.isSome_iff_exists.1 (bypassOf_isSome_iff.2 hn)
  unfold recordBypass
  rw [he]

theorem chainAfterSkip_expected (a : Nat) (h : Header) (c : Chain) : (chainAfterSkip a h c).expected = some (h.sequence + 1) := by
  rcases Option.eq_none_or_eq_some c.anchor with hc | ⟨b, hc⟩
  · rw [chainAfterSkip_of_none hc]; rfl
  · cases hb : b.finished with
    | true => rw [chainAfterSkip_of_finished hc hb]; rfl
    | false => rw [chainAfterSkip_of_open hc hb, (recordBypass_kept ..).2]; rfl

/-- A skip leaves no FINISHED anchor. -/
theorem chainAfterSkip_anchor (a : Nat) (h : Header) (c : Chain) (d : Anchor) (hd : (chainAfterSkip a h c).anchor = some d) :
    d.finished = false := by
  rcases Option.eq_none_or_eq_some c.anchor with hc | ⟨b, hc⟩
  · rw [chainAfterSkip_of_none hc] at hd
    have hd : c.anchor = some d := hd
    rw [hc] at hd
    simp at hd
  · cases hb : b.finished with
    | true => rw [chainAfterSkip_of_finished hc hb] at hd; simp at hd
    | false =>
        rw [chainAfterSkip_of_open hc hb, (recordBypass_kept ..).1] at hd
        obtain rfl := Option.some.inj (hc.symm.trans hd)
        exact hb

/-- The bypass entries after a skip (R195). -/
theorem chainAfterSkip_bypass (a : Nat) (h : Header) (c : Chain) : ∀ rest : List Bypass,
    rest = (c.bypass.filter fun b => !decide (b.preceding = a)) →
    ((∀ d, c.anchor = some d → d.finished = true) → (chainAfterSkip a h c).bypass = rest) ∧
    ∀ d, c.anchor = some d → d.finished = false →
      ((∀ b ∈ rest, b.preceding ≠ d.addr) → (chainAfterSkip a h c).bypass = rest ++
        [{ skipped := a, sequence := h.sequence, link := h.link, preceding := d.addr }]) ∧
      ((∃ b ∈ rest, b.preceding = d.addr) → (chainAfterSkip a h c).bypass = rest.map fun b =>
        if b.preceding = d.addr then { b with sequence := h.sequence, link := h.link } else b) := by
  rintro rest rfl
  refine ⟨fun hall => ?_, fun d hd hf => ⟨fun hn => ?_, fun hn => ?_⟩⟩
  · rcases Option.eq_none_or_eq_some c.anchor with hc | ⟨b, hc⟩
    · rw [chainAfterSkip_of_none hc]; rfl
    · rw [chainAfterSkip_of_finished hc (hall b hc)]; rfl
  · rw [chainAfterSkip_of_open hd hf, recordBypass_of_new (c := pastSkipped a h c) hn]; rfl
  · rw [chainAfterSkip_of_open hd hf, recordBypass_of_known (c := pastSkipped a h c) hn]; rfl

end chain

/-! ## The stream after a skip -/

/-- The stream once its chain has moved on past a skipped span (R154). -/
def skippedPast (a : Nat) (h : Header) (x : Stream) : Stream :=
  { x with
    skip := none, position := .span h.link, counters := countReleased a h.sequence x.counters
    chain := chainAfterSkip a h x.chain }

theorem skipStream_of_finished {k : StreamId} {a : Nat} {h : Header} {x : Stream} {c : Anchor} (hc : x.chain.anchor = some c)
    (hf : c.finished = true) : skipStream k a h x =
      pushWrite (stateWrite c.addr wordReleased (.anchorRelease .skip c.sequence)) (oweRecord (skippedPast a h x)) := by
  unfold skipStream
  rw [finishedAnchor_eq_some_iff.2 ⟨hc, hf⟩]
  rfl

theorem skipStream_of_none {k : StreamId} {a : Nat} {h : Header} {x : Stream}
    (hn : ∀ c, x.chain.anchor = some c → c.finished = false) : skipStream k a h x = handRecord k (skippedPast a h x) := by
  unfold skipStream
  rw [finishedAnchor_eq_none hn]
  rfl

theorem finished_or_not (x : Stream) : (∃ c, x.chain.anchor = some c ∧ c.finished = true) ∨
    ∀ c, x.chain.anchor = some c → c.finished = false := by
  rcases Option.eq_none_or_eq_some x.chain.anchor with h | ⟨c, h⟩
  · exact Or.inr fun c hc => by rw [h] at hc; simp at hc
  · cases hf : c.finished with
    | true => exact Or.inl ⟨c, h, hf⟩
    | false =>
        refine Or.inr fun d hd => ?_
        rw [h] at hd
        exact Option.some.inj hd ▸ hf

theorem skipStream_form (k : StreamId) (a : Nat) (h : Header) (x : Stream) : ∃ q o,
    skipStream k a h x = { skippedPast a h x with queue := q, owed := o } := by
  rcases finished_or_not x with ⟨c, hc, hf⟩ | hn
  · rw [skipStream_of_finished hc hf]; exact ⟨_, _, rfl⟩
  · rw [skipStream_of_none hn, handRecord_eq]; exact ⟨_, _, rfl⟩

/-! ## What the take or the stop work that follows a skip keeps -/

/-- What stands of a skip in its stream through the work that follows it. -/
structure KeepsSkip (x y : Stream) : Prop where
  skip : x.skip = none → y.skip = none
  counters : y.counters = x.counters
  bypass : y.chain.bypass = x.chain.bypass
  anchor : x.chain.anchor = none → y.chain.anchor = none
  slot0 : y.slot0 = x.slot0
  slot1 : y.slot1 = x.slot1
  ctx : y.ctx = x.ctx
  schedule : y.schedule = x.schedule
  takes : y.takes = x.takes
  queue : ∀ w ∈ x.queue, w ∈ y.queue

theorem keepsSkip_takeFailed (k : StreamId) (e : Halt) (x : Stream) : KeepsSkip x (takeFailed k e x) := by
  unfold takeFailed
  split
  · have hq := mem_handRecord_queue k { endWait { x with
      failing := some { addr := e.addr, code := e.code }, halt := some e, skip := none, staging := none } with state := .halting }
    rw [enterHalting, enterState, handRecord_eq]
    exact ⟨fun _ => rfl, rfl, rfl, id, rfl, rfl, rfl, rfl, rfl, hq⟩
  · exact ⟨id, rfl, rfl, id, rfl, rfl, rfl, rfl, rfl, fun _ hw => hw⟩

theorem keepsSkip_beginTake (k : StreamId) (b : Nat) (u : State) : KeepsSkip (u.stream k) ((beginTake k b u).stream k) := by
  by_cases hb : b % 64 = 0
  · rw [beginTake_stream_of_aligned hb]
    exact ⟨id, rfl, rfl, id, rfl, rfl, rfl, rfl, rfl, fun _ hw => hw⟩
  · rw [beginTake_stream_of_misaligned hb]
    obtain ⟨h1, h2, h3, h4, h5, h6, h7, h8, h9, h10⟩ := keepsSkip_takeFailed k (takeHalt b .descInvalid 0 (u.stream k))
      (endWait { u.stream k with position := .span b })
    exact ⟨h1, h2, h3, h4, h5, h6, h7, h8, h9, h10⟩

theorem giveBackUnbegun_anchor {x : Stream} (h : x.chain.anchor = none) : (giveBackUnbegun x).chain.anchor = none := by
  unfold giveBackUnbegun
  split
  · exact h
  · rfl

theorem keepsSkip_settleStop (k : StreamId) (u : State) : KeepsSkip (u.stream k) ((settleStop k u).stream k) := by
  obtain ⟨⟨h1, h2, h3, h4, h5, -, -⟩, -, h6, h7, h8, -⟩ := settleStop_keeps k u
  refine ⟨fun h => h6.trans h, h5, h8, fun h => ?_, h3, h4, h1, h2, h7, fun w hw => mem_settleStop_queue hw⟩
  rcases settleStop_cases k u with e | ⟨_, _, _, ⟨_, e⟩ | ⟨_, e⟩⟩ <;> rw [e]
  · exact h
  · rw [enterStopped_self, onStream_self, enterRest_chain]; exact h
  · rw [onStream_self]; exact giveBackUnbegun_anchor h

/-- With no FINISHED anchor and no span left to give back, the stop work keeps the chain position and the expectation. -/
theorem settleStop_position {k : StreamId} {u : State} (hn : ∀ c, (u.stream k).chain.anchor = some c → c.finished = false)
    (ht : ∀ v ∈ (u.stream k).taken, v.start ≠ none ∨ v.givingBack = true) :
    ((settleStop k u).stream k).position = (u.stream k).position ∧
      ((settleStop k u).stream k).chain.expected = (u.stream k).chain.expected := by
  rcases settleStop_cases k u with e | ⟨_, _, _, ⟨_, e⟩ | ⟨_, e⟩⟩ <;> rw [e]
  · exact ⟨rfl, rfl⟩
  · rw [enterStopped_self, onStream_self, enterRest_position, enterRest_chain]
    refine ⟨?_, rfl⟩
    show stopPosition (u.stream k) = _
    unfold stopPosition
    split
    · rfl
    · split
      · next c hc => simp [hn c hc]
      · rfl
  · rw [onStream_self, giveBackUnbegun_of_none ht]
    exact ⟨rfl, rfl⟩

/-! ## A skip is reported -/

/-- The state with a skip's record made and before the work that follows it. -/
theorem skip_reported {s : State} {k : StreamId} {i : Nat} {w : Write} {a : Nat} {h : Header}
    (hi : s.issued[i]? = some { stream := k, write := w }) (hw : w.tag = .skipReleased)
    (hf : s.fetch = some { stream := k, phase := .skip a h }) : ∃ u : State,
    exec (.writeDone i true) s = .next (drain (if follows (s.stream k).state then beginTake k h.link u else settleStop k u)) ∧
      u.stream k = skipStream k a h (s.stream k) ∧ u.fetch = none ∧ serving u k = serving s k ∧ Works .signals k (unissue i s) u ∧
      (h.notify = true → latched u.evlatch .spanNotify = true) := by
  have hstream : (onStream k (skipStream k a h) (endFetch (unissue i s))).stream k = skipStream k a h (s.stream k) :=
    onStream_self ..
  have hw' : Works .signals k (unissue i s) (notifyIf h.notify (onStream k (skipStream k a h) (endFetch (unissue i s)))) :=
    ((works_endFetch k _).stream _).trans (works_notifyIf k _ _ (by simp))
  refine ⟨_, ?_, ?_, ?_, serving_of_engine hw'.engine, hw', fun hn => ?_⟩
  · rw [exec_writeDone_done hi, onDone, hw]
    dsimp only [skipDone]
    rw [show (unissue i s).fetch = some { stream := k, phase := .skip a h } from hf]
    dsimp only
    rw [if_pos rfl]
    rfl
  · rw [notifyIf]
    split
    · rw [signal_stream, hstream]
    · exact hstream
  · rw [notifyIf]
    split
    · exact signal_fetch ..
    · rfl
  · rw [notifyIf, if_pos hn, latched_signal]
    simp

/-- Whatever follows a skip, it stands recorded. -/
theorem skipRecorded_of_keeps {s u v : State} {k : StreamId} {i : Nat} {a : Nat} {h : Header}
    (hu : u.stream k = skipStream k a h (s.stream k)) (hnotify : h.notify = true → latched u.evlatch .spanNotify = true)
    (hwu : Works .signals k (unissue i s) u) (hwv : Works .signals k u v) (hk : KeepsSkip (u.stream k) (v.stream k)) :
    SkipRecorded k a h s (drain v) := by
  obtain ⟨ho, ha, hc⟩ := (hwu.trans hwv).reported
  obtain ⟨x, hx⟩ : ∃ x, x = s.stream k := ⟨_, rfl⟩
  obtain ⟨q, o, hform⟩ := skipStream_form k a h x
  rw [hu, ← hx] at hk
  unfold SkipRecorded
  dsimp only
  rw [← hx]
  refine ⟨?_, ?_, ?_, fun c hc hf => ⟨?_, ?_⟩, fun p hp hown hn => ?_, fun hn => ?_, ?_, ?_, ?_, ?_, ?_, ho,
    (hwu.trans hwv).reported_status (by simp), ha, hc⟩
  · rw [drain_stream_skip, hk.skip (by rw [hform]; rfl)]
  · rw [drain_stream_counters, hk.counters, hform]; rfl
  · rw [drain_stream_chain, hk.bypass, hform]
    exact chainAfterSkip_bypass a h x.chain
  · rw [drain_stream_chain, hk.anchor]
    rw [hform]
    show (chainAfterSkip a h x.chain).anchor = none
    rw [chainAfterSkip_of_finished hc hf]
  · refine underWay_drain_of_mem (hk.queue _ ?_) rfl (by simp)
    rw [skipStream_of_finished hc hf]
    exact List.mem_append_right _ (List.mem_singleton.2 rfl)
  · have e : recordWrite k { x with position := .span h.link, counters := ((drain v).stream k).counters } p =
        recordWrite k (skippedPast a h x) p := by
      rw [drain_stream_counters, hk.counters, hform]; rfl
    rw [e]
    refine underWay_record (hk.queue _ ?_)
    rw [skipStream_of_none hn]
    exact recordWrite_mem_handRecord hown hp
  · rw [drain_evlatch]; exact hwv.latched _ (hnotify hn)
  · rw [drain_stream_slot0, hk.slot0, hform]; rfl
  · rw [drain_stream_slot1, hk.slot1, hform]; rfl
  · rw [drain_stream_ctx, hk.ctx, hform]; rfl
  · rw [drain_stream_schedule, hk.schedule, hform]; rfl
  · rw [drain_stream_takes, hk.takes, hform]; rfl

/-- A record handed over while others wait is owed (R190; log entry 18). -/
theorem handRecord_owed_of_waiting {k : StreamId} {x : Stream} {p : Nat} (hp : x.progressAddr = some p) (ho : x.owed ≠ []) :
    (handRecord k x).owed = x.owed ++ [x.state] := by
  unfold handRecord
  rw [hp]
  dsimp only
  rw [if_neg ho]

/-- Settles O43: the stream of `skippedPast`, then the take (`beginTake`) or the stop work (`settleStop`). -/
theorem skipMovesChainOn : Obligations.SkipMovesChainOn := by
  unfold Obligations.SkipMovesChainOn
  refine ⟨fun s k i w a h hi hw hf hst => ?take, fun s k i w a h hi hw hf h1 h2 => ?stop⟩
  case take =>
    obtain ⟨u, hexec, hu, huf, -, hwu, hnotify⟩ := skip_reported hi hw hf
    rw [if_pos (by rcases hst with e | e <;> rw [e] <;> rfl)] at hexec
    have hrec := skipRecorded_of_keeps hu hnotify hwu (works_beginTake k u h.link) (keepsSkip_beginTake k h.link u)
    obtain ⟨x, hx⟩ : ∃ x, x = s.stream k := ⟨_, rfl⟩
    obtain ⟨q, o, hform⟩ := skipStream_form k a h x
    rw [← hx] at hu hst ⊢
    rw [hform] at hu
    have hr : recordsFailure (u.stream k).state = true := by
      rw [hu]; exact recordsFailure_of_follows hst
    obtain ⟨t, ht⟩ : ∃ t, t = drain (beginTake k h.link u) := ⟨_, rfl⟩
    rw [← ht] at hexec hrec
    by_cases hb : h.link % 64 = 0
    · have hap : (t.stream k).apart = (endWait { u.stream k with position := .span h.link }).apart := by
        rw [ht, drain_apart, beginTake_stream_of_aligned hb]
      rw [hu] at hap
      refine ⟨t, hexec, hrec, fun _ => ⟨by rw [ht, drain_fetch, beginTake_fetch_of_aligned hb], (Stream.state_of_apart hap :),
        (Stream.failing_of_apart hap :)⟩, fun h' => absurd hb h', (Stream.position_of_apart hap :),
        (congrArg Chain.expected (Stream.chain_of_apart hap :)).trans (chainAfterSkip_expected a h x.chain),
        (Stream.taken_of_apart hap :), (Stream.tag_of_apart hap :), fun c hc hfin _ => ?_, fun c hc hfin => ?_⟩
      · rw [(Stream.owed_of_apart hap :)]
        show o = _
        rw [← show (skipStream k a h x).owed = o by rw [hform], skipStream_of_finished hc hfin]
        rfl
      · refine (congrArg Chain.anchor (Stream.chain_of_apart hap :)).trans ?_
        show (chainAfterSkip a h x.chain).anchor = _
        rw [chainAfterSkip_of_open hc hfin, (recordBypass_kept ..).1]
        exact hc
    · obtain ⟨h1, h2, -, -, -, -, -, h3, h4, h5, -, -, -, -, h6, h7, h8, -⟩ := ht ▸ beginTake_halts hb hr
      rw [hu] at h4 h5 h6 h7 h8
      refine ⟨t, hexec, hrec, fun h' => absurd h' hb, fun _ => ⟨by rw [ht, drain_fetch, beginTake_fetch_of_misaligned hb], h1, h2, h3⟩,
        h6, h8.trans (chainAfterSkip_expected a h x.chain), h5, h4, fun c hc hfin h' => absurd h' hb, fun c hc hfin => h7.trans ?_⟩
      show (chainAfterSkip a h x.chain).anchor = _
      rw [chainAfterSkip_of_open hc hfin, (recordBypass_kept ..).1]
      exact hc
  case stop =>
    obtain ⟨u, hexec, hu, huf, hus, hwu, hnotify⟩ := skip_reported hi hw hf
    rw [if_neg (by revert h1 h2; cases (s.stream k).state <;> simp [follows])] at hexec
    have hrec := skipRecorded_of_keeps hu hnotify hwu (works_settleStop k u (by simp)) (keepsSkip_settleStop k u)
    have hfu : fetching u k = false := by rw [fetching, huf]
    obtain ⟨x, hx⟩ : ∃ x, x = s.stream k := ⟨_, rfl⟩
    obtain ⟨q, o, hform⟩ := skipStream_form k a h x
    rw [← hx] at hu h1 h2 ⊢
    have hu' := hu.trans hform
    refine ⟨_, hexec, hrec, by rw [drain_fetch, settleStop_fetch, huf], ?_, fun ht => ?_, fun h => ?_, fun h3 h4 h5 => ?_,
      fun h3 h4 h5 => ?_⟩
    · rw [drain_stream_failing, (settleStop_keeps k u).2.1, hu']; rfl
    · obtain ⟨hp, he⟩ := settleStop_position (u := u) (k := k) (by rw [hu']; exact chainAfterSkip_anchor a h x.chain)
        (by rw [hu']; exact ht)
      rw [drain_stream_position, drain_stream_chain, hp, he, hu']
      exact ⟨rfl, chainAfterSkip_expected a h x.chain⟩
    · rw [settleStop_of_idle (by rw [hu', hus]; exact h.imp_right Or.inl)]
      rw [drain_stream_state, drain_stream_tag, drain_stream_taken, hu']
      exact ⟨rfl, rfl, rfl⟩
    · have hus' : (u.stream k).state = .stopping := by rw [hu']; exact h3
      obtain ⟨-, hheld, -⟩ := stopWorkFollows (s := u) (u := u) hfu rfl rfl ⟨rfl, rfl, rfl⟩ ⟨rfl, rfl, rfl⟩
      obtain ⟨hap, hstate, htaken, -⟩ := hheld hus' (hus.trans h4) (by rw [hu']; exact h5)
      refine ⟨hstate, ?_, by rw [htaken, hu']; rfl⟩
      rw [(Stream.tag_of_apart hap :), (giveBackUnbegun_kept _).2.2.2.2.1, hu']
      rfl
    · have hus' : (u.stream k).state = .stopping := by rw [hu']; exact h3
      have hut : (u.stream k).taken = [] := by rw [hu']; exact h5
      obtain ⟨hstop, -⟩ := stopWorkFollows (s := u) (u := u) hfu rfl rfl ⟨rfl, rfl, rfl⟩ ⟨rfl, rfl, rfl⟩
      obtain ⟨g1, g2, g3, -, -, g4, -, -, -, g5⟩ := hstop hus' (hus.trans h4) hut
      refine ⟨g1, by rw [g2, hu']; rfl, g3, g4, fun p hp => ⟨fun hown hn => g5 p (by rw [hu']; exact hp) ?_, fun c hc hfin => ?_⟩⟩
      · rw [hu, skipStream_of_none hn]
        exact handRecord_owed_of_nil hown
      · have howed : (u.stream k).owed = x.owed ++ [.stopping] := by
          rw [hu, skipStream_of_finished hc hfin, ← h3]; rfl
        rw [drain_stream_owed, settleStop_stream_of_empty hus' (hus.trans h4) hfu hut]
        refine (handRecord_owed_of_waiting (p := p) (by show (u.stream k).progressAddr = _; rw [hu']; exact hp)
          (by show (u.stream k).owed ≠ []; rw [howed]; simp)).trans ?_
        show (u.stream k).owed ++ _ = _
        rw [howed, List.append_assoc]
        rfl

end Sys2Proof.Machine
end

section
/-! PROOFS. The Lane Combiner's counting, retirement and reinstatement (R17 to R19), and its state's range. -/

namespace Sys2Proof.Machine

/-! ## The outlier window (R17) -/

section window

variable {ls : LaneState} {limit : Nat} {l : Lane}

theorem zeroCounts_getElem (m : Lane) : zeroCounts[m] = 0 := by
  show (Vector.replicate 3 0)[m.val] = 0
  exact Vector.getElem_replicate _

theorem advanceWindow_of_full (h : ls.counter + 1 = 65536) : advanceWindow ls = { ls with counts := zeroCounts, counter := 0 } :=
  if_pos h

theorem advanceWindow_of_open (h : ls.counter + 1 ≠ 65536) : advanceWindow ls = { ls with counter := ls.counter + 1 } :=
  if_neg h

theorem advanceWindow_kept (ls : LaneState) : (advanceWindow ls).retired = ls.retired ∧ (advanceWindow ls).history = ls.history := by
  unfold advanceWindow
  split <;> exact ⟨rfl, rfl⟩

/-- The lane state with one more outlier counted. -/
def countedOnce (l : Lane) (ls : LaneState) : LaneState :=
  { ls with counts := ls.counts.set l (ls.counts[l] + 1) }

theorem countedOnce_getElem (m : Lane) : (countedOnce l ls).counts[m] = if m = l then ls.counts[l] + 1 else ls.counts[m] := by
  show (ls.counts.set l.val (ls.counts[l] + 1) l.isLt)[m.val] = _
  rw [Vector.getElem_set]
  simp only [Fin.ext_iff, eq_comm]
  rfl

theorem countOutlier_within (h : limit = 0 ∨ ls.counts[l] + 1 ≤ limit) :
    countOutlier limit (some l) ls = (advanceWindow (countedOnce l ls), .none) := by
  unfold countOutlier
  exact if_neg (by omega)

theorem countOutlier_retires (h0 : 0 < limit) (h : limit < ls.counts[l] + 1) (hr : ls.retired = none) :
    countOutlier limit (some l) ls = ({ ls with retired := some l, counts := zeroCounts, counter := 0 }, .retirement) := by
  unfold countOutlier
  dsimp only
  rw [if_pos ⟨h0, h⟩, hr]

theorem countOutlier_reinstates (h0 : 0 < limit) (h : limit < ls.counts[l] + 1) (hr : ls.retired ≠ none) :
    countOutlier limit (some l) ls = ({ ls with retired := none, counts := zeroCounts, counter := 0 }, .reinstatement) := by
  obtain ⟨m, hm⟩ := Option.ne_none_iff_exists'.1 hr
  unfold countOutlier
  dsimp only
  rw [if_pos ⟨h0, h⟩, hm]

/-- All that counting an outlier can do: the window goes on with it, or its lane changes the retired set. -/
theorem countOutlier_cases (limit : Nat) (l : Lane) (ls : LaneState) :
    countOutlier limit (some l) ls = (advanceWindow (countedOnce l ls), .none) ∨
    ∃ r c, countOutlier limit (some l) ls = ({ ls with retired := r, counts := zeroCounts, counter := 0 }, c) := by
  by_cases h : limit = 0 ∨ ls.counts[l] + 1 ≤ limit
  · exact Or.inl (countOutlier_within h)
  · have h0 : 0 < limit := by omega
    have h1 : limit < ls.counts[l] + 1 := by omega
    cases hr : ls.retired with
    | none => exact Or.inr ⟨_, _, countOutlier_retires h0 h1 hr⟩
    | some m => exact Or.inr ⟨_, _, countOutlier_reinstates h0 h1 (by simp [hr])⟩

theorem countOutlier_history (limit : Nat) (o : Option Lane) (ls : LaneState) : (countOutlier limit o ls).1.history = ls.history := by
  cases o with
  | none => exact (advanceWindow_kept ls).2
  | some l =>
      rcases countOutlier_cases limit l ls with h | ⟨_, _, h⟩ <;> rw [h]
      exact (advanceWindow_kept _).2

end window

/-! ## The voted row (R8 to R15) -/

theorem not_retired_of_usable {ls : LaneState} {l : Lane} {x : Sample} {v : Int} (h : usable ls l x = some v) : ls.retired ≠ some l := by
  intro hr
  unfold usable at h
  rw [if_pos hr] at h
  simp at h

theorem twoLaneVote_outlier {d : Nat} {history : List Int} {i j l : Lane} {x y : Int}
    (h : (twoLaneVote d history i j x y).outlier = some l) : l = i ∨ l = j := by
  unfold twoLaneVote at h
  split at h
  · simp [plainVote] at h
  · dsimp only at h
    split at h
    · exact Or.inr (Option.some.inj h).symm
    · exact Or.inl (Option.some.inj h).symm

/-- A retired lane is never an outlier (R8, R11). -/
theorem voteRow_outlier {d : Nat} {ls : LaneState} {row : LaneRow} {l : Lane} (h : (voteRow d ls row).outlier = some l) :
    ls.retired ≠ some l := by
  cases row with
  | one a => simp [voteRow, plainVote] at h
  | three a b c =>
      unfold voteRow at h
      dsimp only at h
      split at h
      · next h0 h1 h2 =>
          fin_cases l
          · exact not_retired_of_usable h0
          · exact not_retired_of_usable h1
          · exact not_retired_of_usable h2
      · next h0 h1 _ =>
          rcases twoLaneVote_outlier h with rfl | rfl
          · exact not_retired_of_usable h0
          · exact not_retired_of_usable h1
      · next h0 _ h2 =>
          rcases twoLaneVote_outlier h with rfl | rfl
          · exact not_retired_of_usable h0
          · exact not_retired_of_usable h2
      · next _ h1 h2 =>
          rcases twoLaneVote_outlier h with rfl | rfl
          · exact not_retired_of_usable h1
          · exact not_retired_of_usable h2
      · simp [plainVote] at h

/-! ## The lane state in its range -/

theorem lanesHold_zero {ls : LaneState} (r : Option Lane) (h : LanesHold ls) :
    LanesHold { ls with retired := r, counts := zeroCounts, counter := 0 } := by
  obtain ⟨-, -, -, hh⟩ := h
  exact ⟨by simp, Nat.le_of_eq rfl, fun l _ => zeroCounts_getElem l, hh⟩

/-- The sum of the counts after one more outlier is one more. -/
theorem sum_countedOnce (l : Lane) (ls : LaneState) : (countedOnce l ls).counts[0] + (countedOnce l ls).counts[1] +
    (countedOnce l ls).counts[2] = ls.counts[0] + ls.counts[1] + ls.counts[2] + 1 := by
  have h0 := countedOnce_getElem (ls := ls) (l := l) 0
  have h1 := countedOnce_getElem (ls := ls) (l := l) 1
  have h2 := countedOnce_getElem (ls := ls) (l := l) 2
  have e : ∀ v : Vector Nat 3, v[(0 : Lane)] = v[0] ∧ v[(1 : Lane)] = v[1] ∧ v[(2 : Lane)] = v[2] := fun _ => ⟨rfl, rfl, rfl⟩
  obtain ⟨a0, a1, a2⟩ := e (countedOnce l ls).counts
  obtain ⟨b0, b1, b2⟩ := e ls.counts
  rw [← a0, ← a1, ← a2, h0, h1, h2]
  fin_cases l <;> simp [b0, b1, b2] <;> omega

/-- The window goes on with at most one more outlier counted, of a lane that is not retired. -/
theorem lanesHold_advance {ls after : LaneState} (h : LanesHold ls) (hr : after.retired = ls.retired) (hc : after.counter = ls.counter)
    (hh : after.history = ls.history)
    (hsum : after.counts[0] + after.counts[1] + after.counts[2] ≤ ls.counts[0] + ls.counts[1] + ls.counts[2] + 1)
    (hz : ∀ l : Lane, ls.retired = some l → after.counts[l] = ls.counts[l]) : LanesHold (advanceWindow after) := by
  obtain ⟨h1, h2, h3, h4⟩ := h
  by_cases hf : after.counter + 1 = 65536
  · rw [advanceWindow_of_full hf]
    exact ⟨by simp, Nat.le_of_eq rfl, fun l _ => zeroCounts_getElem l, hh ▸ h4⟩
  · rw [advanceWindow_of_open hf]
    refine ⟨by show after.counter + 1 < _; omega, by
      show after.counts[0] + after.counts[1] + after.counts[2] ≤ after.counter + 1
      omega, fun l hl => ?_, hh ▸ h4⟩
    have hl : ls.retired = some l := hr ▸ hl
    exact (hz l hl).trans (h3 l hl)

theorem lanesHold_countOutlier {limit : Nat} {o : Option Lane} {ls : LaneState} (h : LanesHold ls)
    (ho : ∀ l, o = some l → ls.retired ≠ some l) : LanesHold (countOutlier limit o ls).1 := by
  cases o with
  | none => exact lanesHold_advance h rfl rfl rfl (by omega) fun _ _ => rfl
  | some l =>
      rcases countOutlier_cases limit l ls with e | ⟨r, c, e⟩ <;> rw [e]
      · refine lanesHold_advance h rfl rfl rfl (Nat.le_of_eq (sum_countedOnce l ls)) fun m hm => ?_
        rw [countedOnce_getElem, if_neg (by rintro rfl; exact ho _ rfl hm)]
      · exact lanesHold_zero r h

theorem length_shiftHistory {v : Sample} {history : List Int} (h : history.length ≤ 2) : (shiftHistory v history).length ≤ 2 := by
  cases v with
  | value x => simp [shiftHistory]
  | void o => exact h

theorem lanesHold_combine {d limit : Nat} {row : LaneRow} {ls : LaneState} (h : LanesHold ls) :
    LanesHold (combine d limit row ls).2.1 := by
  have hs : LanesHold { ls with history := shiftHistory (voteRow d ls row).v ls.history } := by
    obtain ⟨h1, h2, h3, h4⟩ := h
    exact ⟨h1, h2, h3, length_shiftHistory h4⟩
  cases row with
  | one a => exact hs
  | three a b c => exact lanesHold_countOutlier hs fun l hl => voteRow_outlier (ls := ls) hl

theorem combine_vote (d limit : Nat) (row : LaneRow) (ls : LaneState) : (combine d limit row ls).1 = voteRow d ls row := by
  cases row <;> rfl

/-- Settles O46: `countOutlier` by its cases, and `lanesHold_combine` for the ranges. -/
theorem outliersCountedInRange : Obligations.OutliersCountedInRange := by
  unfold Obligations.OutliersCountedInRange
  refine ⟨fun limit l ls => ⟨fun h => ?within, fun h0 h => ⟨?counter, ?counts, fun hr => ?retires, fun hr => ?reinstates⟩⟩,
    fun limit ls => ⟨rfl, (advanceWindow_kept ls).1, fun h => ?noneOpen, fun h => ?noneFull⟩,
    fun d limit row ls after ha => ⟨?history, fun a b c hrow => ?three, fun a hrow => ?one⟩, fun d limit row ls h => lanesHold_combine h⟩
  case within =>
    rw [countOutlier_within h]
    refine ⟨rfl, (advanceWindow_kept _).1, fun hc => ?_, fun hc => ?_⟩
    · rw [advanceWindow_of_open (ls := countedOnce l ls) hc]
      exact ⟨rfl, fun m => countedOnce_getElem m⟩
    · rw [advanceWindow_of_full (ls := countedOnce l ls) hc]
      exact ⟨rfl, zeroCounts_getElem⟩
  case counter =>
    by_cases hr : ls.retired = none
    · rw [countOutlier_retires h0 h hr]
    · rw [countOutlier_reinstates h0 h hr]
  case counts =>
    by_cases hr : ls.retired = none
    · rw [countOutlier_retires h0 h hr]; exact zeroCounts_getElem
    · rw [countOutlier_reinstates h0 h hr]; exact zeroCounts_getElem
  case retires => rw [countOutlier_retires h0 h hr]; exact ⟨rfl, rfl⟩
  case reinstates => rw [countOutlier_reinstates h0 h hr]; exact ⟨rfl, rfl⟩
  case noneOpen =>
    show (advanceWindow ls).counter = _ ∧ ∀ m : Lane, (advanceWindow ls).counts[m] = _
    rw [advanceWindow_of_open h]
    exact ⟨rfl, fun _ => rfl⟩
  case noneFull =>
    show (advanceWindow ls).counter = _ ∧ ∀ m : Lane, (advanceWindow ls).counts[m] = _
    rw [advanceWindow_of_full h]
    exact ⟨rfl, zeroCounts_getElem⟩
  all_goals
    have ha' : after = { ls with history := shiftHistory (voteRow d ls row).v ls.history } := by
      rw [ha, combine_vote]
      cases (voteRow d ls row).v <;> rfl
    subst ha'
  case history =>
    cases row with
    | one a => rfl
    | three a b c => exact countOutlier_history limit _ _
  case three => subst hrow; exact ⟨rfl, rfl⟩
  case one => subst hrow; rfl

end Sys2Proof.Machine
end

section
/-! PROOFS. Mark tracking (R28, R33 to R38). -/

namespace Sys2Proof.Machine

/-! ## The mark of a position -/

section mark

variable {sched : Schedule} {n : Nat}

theorem markAt_of_mem (hs : sched.accepted.Pairwise fun m m' => m.offset < m'.offset) {m : Mark} (hm : m ∈ sched.accepted)
    (hn : m.offset = n) : markAt sched n = some m := by
  unfold markAt
  obtain ⟨before, after, hsplit⟩ := List.append_of_mem hm
  rw [hsplit] at hs ⊢
  obtain ⟨-, -, hb⟩ := List.pairwise_append.1 hs
  refine List.find?_eq_some_iff_append.2 ⟨by simp [hn], before, after, rfl, fun m' hm' => ?_⟩
  have := hb m' hm' m (by simp)
  simp only [Bool.not_eq_true', decide_eq_false_iff_not]
  omega

theorem markAt_eq_none (h : ∀ m ∈ sched.accepted, m.offset ≠ n) : markAt sched n = none :=
  List.find?_eq_none.2 fun m hm => by simpa using h m hm

/-- The mark state once the mark of the position, if there is one, has been passed. -/
def passedMark (sched : Schedule) (n : Nat) (ms : MarkState) : MarkState :=
  match markAt sched n with
  | none => ms
  | some m => passMark m ms

theorem passMark_bumpEnd (m : Mark) (ms : MarkState) : (passMark m ms).bumpEnd = ms.bumpEnd := by
  unfold passMark
  dsimp only
  split <;> rfl

theorem passMark_pk (m : Mark) (ms : MarkState) : (passMark m ms).pk = some m.offset := by
  unfold passMark
  dsimp only
  split <;> rfl

theorem passMark_period_of_none {m : Mark} {ms : MarkState} (h : ms.pk = none) : (passMark m ms).period = ms.period := by
  unfold passMark
  rw [h]
  dsimp only
  split <;> rfl

theorem passMark_period_of_some {m : Mark} {ms : MarkState} {p : Nat} (h : ms.pk = some p) :
    (passMark m ms).period = some (m.offset - p) := by
  unfold passMark
  rw [h]
  dsimp only
  split <;> rfl

/-- A mark with FRAME_START sets the frame flags, and no other does (R33). -/
theorem passMark_frame (m : Mark) (ms : MarkState) :
    (m.frameStart = true → (passMark m ms).protect = m.protect ∧ (passMark m ms).hissRef = m.hissRef) ∧
    (m.frameStart = false → (passMark m ms).protect = ms.protect ∧ (passMark m ms).hissRef = ms.hissRef) := by
  unfold passMark
  exact ⟨fun h => by rw [if_pos h]; exact ⟨rfl, rfl⟩, fun h => by rw [if_neg (by rw [h]; decide)]; exact ⟨rfl, rfl⟩⟩

theorem passedMark_bumpEnd (ms : MarkState) : (passedMark sched n ms).bumpEnd = ms.bumpEnd := by
  unfold passedMark
  split
  · rfl
  · exact passMark_bumpEnd ..

end mark

/-! ## The splice bumps (R37) -/

theorem lapseBump_form (n : Nat) (ms : MarkState) : lapseBump n ms = { ms with bumpEnd := (lapseBump n ms).bumpEnd } := by
  unfold lapseBump
  split
  · rfl
  · split <;> rfl

theorem lapseBump_bumpEnd_iff {n e : Nat} {ms : MarkState} : (lapseBump n ms).bumpEnd = some e ↔ ms.bumpEnd = some e ∧ n < e := by
  unfold lapseBump
  cases h : ms.bumpEnd with
  | none => simp [h]
  | some b =>
      dsimp only
      split
      · next hb =>
          simp only [reduceCtorEq, Option.some.injEq, false_iff, not_and]
          omega
      · next hb =>
          rw [h]
          simp only [Option.some.injEq]
          omega

/-- What one mark of the schedule does to the pending end after the span's last sample. -/
def carryMark (width lastPos : Nat) (t : MarkState) (m : Mark) : MarkState :=
  if m.splice && decide (lastPos < m.offset + width) then
    { t with bumpEnd := some (max (t.bumpEnd.getD 0) (m.offset + width)) }
  else t

theorem carryMark_form (width lastPos : Nat) (t : MarkState) (m : Mark) :
    carryMark width lastPos t m = { t with bumpEnd := (carryMark width lastPos t m).bumpEnd } := by
  unfold carryMark
  split <;> rfl

theorem foldl_carryMark_form (width lastPos : Nat) (ms : List Mark) (t : MarkState) :
    ms.foldl (carryMark width lastPos) t = { t with bumpEnd := (ms.foldl (carryMark width lastPos) t).bumpEnd } := by
  induction ms generalizing t with
  | nil => rfl
  | cons m ms ih =>
      rw [List.foldl_cons, ih, carryMark_form]

/-- The pending end is the greatest end of the bumps that run past the last sample and of the one that was pending. -/
theorem foldl_carryMark_bumpEnd_iff {width lastPos e : Nat} (ms : List Mark) (t : MarkState) :
    (ms.foldl (carryMark width lastPos) t).bumpEnd = some e ↔
      (t.bumpEnd = some e ∨ ∃ m ∈ ms, m.splice = true ∧ lastPos < m.offset + width ∧ m.offset + width = e) ∧
      (∀ m ∈ ms, m.splice = true → lastPos < m.offset + width → m.offset + width ≤ e) ∧ ∀ b, t.bumpEnd = some b → b ≤ e := by
  induction ms generalizing t with
  | nil => simp; rintro h b hb; rw [h] at hb; exact Nat.le_of_eq (Option.some.inj hb).symm
  | cons m ms ih =>
      rw [List.foldl_cons, ih]
      by_cases hm : m.splice = true ∧ lastPos < m.offset + width
      · have e1 : carryMark width lastPos t m = { t with bumpEnd := some (max (t.bumpEnd.getD 0) (m.offset + width)) } :=
          if_pos (by simp [hm])
        rw [e1]
        cases ht : t.bumpEnd with
        | none => simp [hm]; exact fun _ => and_comm
        | some b =>
            simp only [Option.getD_some, Option.some.injEq, List.mem_cons, exists_eq_or_imp, forall_eq_or_imp, hm, true_and,
              forall_const, forall_eq']
            grind
      · have e1 : carryMark width lastPos t m = t := if_neg (by simpa using hm)
        rw [e1]
        simp only [List.mem_cons, exists_eq_or_imp, forall_eq_or_imp]
        grind

theorem inRun_iff {width start n : Nat} {m : Mark} : inRun width start n m = true ↔
    m.splice = true ∧ start ≤ n ∧ m.offset ≤ n + width ∧ n ≤ m.offset + width := by
  unfold inRun
  simp only [Bool.and_eq_true, decide_eq_true_eq, Nat.max_le, Nat.sub_le_iff_le_add, and_assoc]
  exact and_congr_right fun _ => and_left_comm

theorem inBump_iff {sched : Schedule} {width start n : Nat} {b : Option Nat} : inBump sched width start b n = true ↔
    (∃ m ∈ sched.accepted, m.splice = true ∧ start ≤ n ∧ m.offset ≤ n + width ∧ n ≤ m.offset + width) ∨
      ∃ e, b = some e ∧ n ≤ e := by
  unfold inBump
  rw [Bool.or_eq_true, List.any_eq_true]
  simp only [inRun_iff]
  cases b <;> simp

/-! ## One position -/

/-- The pending end after a position. -/
def bumpAfter (sched : Schedule) (width last n : Nat) (ms : MarkState) : Option Nat :=
  (if n = last then carryBump sched width last (lapseBump n (passedMark sched n ms)) else lapseBump n (passedMark sched n ms)).bumpEnd

theorem track_state (sched : Schedule) (width start last n : Nat) (protectAll : Bool) (ms : MarkState) :
    (track sched width start last protectAll n ms).2 = { passedMark sched n ms with bumpEnd := bumpAfter sched width last n ms } := by
  show (if n = last then carryBump sched width last (lapseBump n (passedMark sched n ms)) else lapseBump n (passedMark sched n ms)) = _
  unfold bumpAfter
  split
  · have h := foldl_carryMark_form width last sched.accepted (lapseBump n (passedMark sched n ms))
    show sched.accepted.foldl (carryMark width last) _ = _
    rw [h, lapseBump_form]
    rfl
  · exact lapseBump_form ..

/-- The phase depends on the last mark and the period alone. -/
theorem phaseAt_congr {sched : Schedule} {n : Nat} {a b : MarkState} (hp : a.pk = b.pk) (hl : a.period = b.period) :
    phaseAt sched a n = phaseAt sched b n := by
  unfold phaseAt
  rw [hp, hl]

/-- Settles O49: `passedMark` for the mark, `inBump_iff` and `foldl_carryMark_bumpEnd_iff` for the bumps. -/
theorem markStateTracked : Obligations.MarkStateTracked := by
  unfold Obligations.MarkStateTracked
  intro sched width start last n protectAll ms hs
  dsimp only
  rw [track_state]
  refine ⟨fun m hm hn => ?mark, fun h => ?none, fun after hp hl => ⟨fun h => ?noPhase, fun b o h => ?phase⟩, ?prot, inBump_iff,
    fun hn e => ?inner, fun hn e => ?final⟩
  case mark =>
    have hat := markAt_of_mem hs hm hn
    have hpass : passedMark sched n ms = passMark m ms := by unfold passedMark; rw [hat]
    have hatt : (track sched width start last protectAll n ms).1.splice = m.splice ∧
        (track sched width start last protectAll n ms).1.refEnd = (m.frameStart && ms.hissRef) := by
      unfold track
      rw [hat]
      exact ⟨rfl, rfl⟩
    obtain ⟨hsplice, hrefEnd⟩ := hatt
    obtain ⟨hstarts, hkeeps⟩ := passMark_frame m ms
    rw [hpass, hsplice, hrefEnd]
    refine ⟨by rw [← hn]; exact passMark_pk m ms, ?_, rfl, fun hf => ⟨(hstarts hf).1, (hstarts hf).2, by rw [hf, Bool.true_and]⟩,
      fun hf => ⟨(hkeeps hf).1, (hkeeps hf).2, by rw [hf, Bool.false_and]⟩⟩
    rw [← hn]
    rcases Option.eq_none_or_eq_some ms.pk with h | ⟨p, h⟩
    · rw [h]; exact passMark_period_of_none h
    · rw [h]; exact passMark_period_of_some h
  case none =>
    have hat := markAt_eq_none h
    have hpass : passedMark sched n ms = ms := by unfold passedMark; rw [hat]
    have hatt : (track sched width start last protectAll n ms).1.refEnd = false ∧
        (track sched width start last protectAll n ms).1.splice = false := by
      unfold track
      rw [hat]
      exact ⟨rfl, rfl⟩
    rw [hpass]
    exact ⟨rfl, rfl, rfl, rfl, hatt⟩
  case noPhase =>
    rw [phaseAt_congr (b := passedMark sched n ms) hp hl] at h
    show (phaseAt sched (passedMark sched n ms) n).map _ = none ∧ (match phaseAt sched (passedMark sched n ms) n with
      | none => false
      | some p => p.2) = false
    rw [h]
    exact ⟨rfl, rfl⟩
  case phase =>
    rw [phaseAt_congr (b := passedMark sched n ms) hp hl] at h
    show (phaseAt sched (passedMark sched n ms) n).map _ = _ ∧ (match phaseAt sched (passedMark sched n ms) n with
      | none => false
      | some p => p.2) = _
    rw [h]
    exact ⟨rfl, rfl⟩
  case prot =>
    show ((passedMark sched n ms).protect || protectAll) = true ↔ _
    rw [Bool.or_eq_true]
  case inner =>
    show bumpAfter sched width last n ms = some e ↔ _
    unfold bumpAfter
    rw [if_neg hn, lapseBump_bumpEnd_iff, passedMark_bumpEnd]
  case final =>
    show bumpAfter sched width last n ms = some e ↔ _
    unfold bumpAfter
    rw [if_pos hn]
    refine (foldl_carryMark_bumpEnd_iff (width := width) (lastPos := last) sched.accepted _).trans ?_
    simp only [lapseBump_bumpEnd_iff, passedMark_bumpEnd, and_imp]
    refine and_congr (or_congr Iff.rfl (exists_congr fun m => and_congr_right fun _ => and_congr_right fun _ => ?_)) Iff.rfl
    omega

end Sys2Proof.Machine
end

section
/-! PROOFS. The Hum Canceller: subtraction, learning, the line counter and splice resets (R43 to R55). -/

namespace Sys2Proof.Machine

/-! ## The bins of a template (R39, R52) -/

/-- The bins listed stand in rising order. -/
def BinsRise (cells : List (Nat × Int)) : Prop :=
  cells.Pairwise fun a b => a.1 < b.1

theorem binGet_binPut_same {b : Nat} {v : Int} {cells : List (Nat × Int)} (h : BinsRise cells) : binGet (binPut b v cells) b = v := by
  induction cells with
  | nil =>
      rw [binPut]
      split
      · next hv => rw [hv]; rfl
      · simp [binGet]
  | cons c cells ih =>
      obtain ⟨i, x⟩ := c
      obtain ⟨hhead, htail⟩ := List.pairwise_cons.1 h
      rw [binPut]
      split
      · next hb =>
          split
          · next hv =>
              rw [hv]
              refine binGet_of_lt _ _ fun c hc => ?_
              rcases List.mem_cons.1 hc with rfl | hc
              · exact hb
              · exact hb.trans (hhead c hc)
          · simp [binGet]
      · split
        · next hi =>
            subst hi
            split
            · next hv => rw [hv]; exact binGet_of_lt _ _ hhead
            · simp [binGet]
        · next hi => rw [binGet, if_neg hi, ih htail]

theorem binGet_binPut_other {b c : Nat} (v : Int) (hc : c ≠ b) (cells : List (Nat × Int)) :
    binGet (binPut b v cells) c = binGet cells c := by
  induction cells with
  | nil =>
      rw [binPut]
      split
      · rfl
      · simp [binGet, hc.symm]
  | cons d cells ih =>
      obtain ⟨i, x⟩ := d
      rw [binPut]
      split
      · split
        · rfl
        · rw [binGet, if_neg hc.symm]
      · split
        · next hi =>
            subst hi
            rw [show binGet ((i, x) :: cells) c = binGet cells c by rw [binGet, if_neg hc.symm]]
            split
            · rfl
            · rw [binGet, if_neg hc.symm]
        · rw [binGet, binGet, ih]

theorem mem_binPut {b : Nat} {v : Int} {cells : List (Nat × Int)} {c : Nat × Int} (h : c ∈ binPut b v cells) :
    c = (b, v) ∧ v ≠ 0 ∨ c ∈ cells := by
  induction cells with
  | nil =>
      rw [binPut] at h
      split at h
      · simp at h
      · next hv => exact Or.inl ⟨List.mem_singleton.1 h, hv⟩
  | cons d cells ih =>
      obtain ⟨i, x⟩ := d
      rw [binPut] at h
      split at h
      · split at h
        · exact Or.inr h
        · next hv => exact (List.mem_cons.1 h).imp_left fun e => ⟨e, hv⟩
      · split at h
        · split at h
          · exact Or.inr (List.mem_cons_of_mem _ h)
          · next hv => exact (List.mem_cons.1 h).imp (fun e => ⟨e, hv⟩) (List.mem_cons_of_mem _)
        · rcases List.mem_cons.1 h with h | h
          · exact Or.inr (h ▸ List.mem_cons_self ..)
          · exact (ih h).imp_right (List.mem_cons_of_mem _)

theorem binsRise_binPut {b : Nat} {v : Int} {cells : List (Nat × Int)} (h : BinsRise cells) : BinsRise (binPut b v cells) := by
  induction cells with
  | nil =>
      rw [binPut]
      split
      · exact List.Pairwise.nil
      · exact List.pairwise_singleton _ _
  | cons d cells ih =>
      obtain ⟨i, x⟩ := d
      obtain ⟨hhead, htail⟩ := List.pairwise_cons.1 h
      rw [binPut]
      split
      · next hb =>
          split
          · exact h
          · refine List.pairwise_cons.2 ⟨fun c hc => ?_, h⟩
            rcases List.mem_cons.1 hc with rfl | hc
            · exact hb
            · exact hb.trans (hhead c hc)
      · split
        · next hi =>
            split
            · exact htail
            · exact List.pairwise_cons.2 ⟨fun c hc => hi ▸ hhead c hc, htail⟩
        · next hb hi =>
            refine List.pairwise_cons.2 ⟨fun c hc => ?_, ih htail⟩
            rcases mem_binPut hc with ⟨rfl, -⟩ | hc
            · show i < b; omega
            · exact hhead c hc

theorem templateCanonical_iff {t : Template} : templateCanonical t = true ↔
    BinsRise t.cells ∧ ∀ c ∈ t.cells, c.2 ≠ 0 ∧ -2147483392 ≤ c.2 ∧ c.2 ≤ 2147483392 := by
  unfold templateCanonical
  simp only [Bool.and_eq_true, decide_eq_true_eq, List.all_eq_true, and_assoc]
  rfl

/-- A bin within its bounds leaves the template in its form. -/
theorem templateCanonical_setBin {b : Nat} {v : Int} {t : Template} (ht : templateCanonical t = true)
    (hv : -2147483392 ≤ v ∧ v ≤ 2147483392) : templateCanonical (setBin b v t) = true := by
  obtain ⟨hrise, hcells⟩ := templateCanonical_iff.1 ht
  refine templateCanonical_iff.2 ⟨binsRise_binPut hrise, fun c hc => ?_⟩
  rcases mem_binPut hc with ⟨rfl, hn⟩ | hc
  · exact ⟨hn, hv⟩
  · exact hcells c hc

/-! ## Subtraction and learning -/

theorem cancelHum_value (kp period : Nat) (b : Option Nat) (h : HumState) (x : Int) : cancelHum kp period b h (.value x) =
    (.value (max (-8388607) (min 8388607 (x - humEstimate kp period b h))),
      decide (x - humEstimate kp period b h < -8388607 ∨ 8388607 < x - humEstimate kp period b h)) := by
  show (Sample.value (clampSample (x - humEstimate kp period b h)),
    decide (clampSample (x - humEstimate kp period b h) ≠ x - humEstimate kp period b h)) = _
  rw [decide_eq_decide.2 (clampSample_ne_iff _), clampSample_eq]

theorem sampleHolds_cancelHum (kp period : Nat) (b : Option Nat) (h : HumState) (x : Int) :
    SampleHolds (cancelHum kp period b h (.value x)).1 := inRange_clampSample _

theorem learnBin_eq (k b : Nat) (u : Int) (t : Template) : learnBin k b u t =
    setBin b (max (-2147483392) (min 2147483392 (bin t b + learnDelta k u))) t :=
  congrArg (setBin b · t) (clampTo_eq (-2147483392) 2147483392 _ (by decide))

theorem advanceLine_counter {period : Nat} {h : HumState} (hc : h.counter < period) :
    (advanceLine period h).counter = (h.counter + 1) % period := by
  unfold advanceLine
  rw [if_neg (by omega)]
  split
  · next he => rw [he, Nat.mod_self]
  · rw [Nat.mod_eq_of_lt (by omega)]

/-- Settles O50: `cancelHum_value`, `learnBin_eq` with the bins' lemmas, and `advanceLine_counter`. -/
theorem humSubtractedAndLearned : Obligations.HumSubtractedAndLearned := by
  unfold Obligations.HumSubtractedAndLearned
  refine ⟨fun kp period b h => ⟨fun o => rfl, fun x est he => ?subtract⟩, fun k b u t ht => ?learn,
    fun p b u disputed flagged h => ⟨fun hn => ?ineligible, fun x hu hd hf => ?eligible⟩,
    fun period h => ⟨?perf, ?line, fun hp => ?off, fun hc => ?counts⟩, fun h => ⟨rfl, rfl, rfl⟩,
    fun sp row r vote attrs hum hv ha hh => ?stages⟩
  case subtract =>
    have he : est = humEstimate kp period b h := by
      rw [he]
      unfold humEstimate
      cases b <;> simp
    subst he
    exact ⟨cancelHum_value .., sampleHolds_cancelHum ..⟩
  case learn =>
    obtain ⟨hrise, -⟩ := templateCanonical_iff.1 ht
    rw [learnBin_eq]
    exact ⟨binGet_binPut_same hrise, fun c hc => binGet_binPut_other _ hc t.cells, templateCanonical_setBin ht (by omega)⟩
  case ineligible =>
    cases u with
    | void o => rfl
    | value x =>
        have h' : (disputed || flagged) = true := by simpa [isVoid] using hn
        exact if_pos h'
  case eligible => subst hu hd hf; rfl
  case perf => unfold advanceLine; split <;> [rfl; split <;> rfl]
  case line => unfold advanceLine; split <;> [rfl; split <;> rfl]
  case off => exact congrArg HumState.counter (if_pos hp)
  case counts => exact ⟨advanceLine_counter hc, advanceLine_counter hc ▸ Nat.mod_lt _ (by omega)⟩
  case stages =>
    subst hv ha hh
    exact ⟨rfl, rfl⟩

end Sys2Proof.Machine
end

section
/-! PROOFS. The records the part reads (R193, 10.8) and the limits of a profile (R40, R61, R90, R133). -/

namespace Sys2Proof.Machine

/-! ## Fields -/

theorem fieldAt_zero (bytes : List Byte) (off : Nat) : fieldAt bytes off 0 = 0 := rfl

theorem fieldAt_succ_of_none {bytes : List Byte} {off : Nat} (h : bytes[off]? = none) (n : Nat) :
    fieldAt bytes off (n + 1) = 0 ∧ fieldAt bytes (off + 1) n = 0 := by
  have h : bytes.length ≤ off := List.getElem?_eq_none_iff.1 h
  unfold fieldAt
  rw [List.drop_eq_nil_of_le h, List.drop_eq_nil_of_le (by omega)]
  simp [leNat]

theorem fieldAt_succ_of_some {bytes : List Byte} {off : Nat} {b : Byte} (h : bytes[off]? = some b) (n : Nat) :
    fieldAt bytes off (n + 1) = b.toNat + 256 * fieldAt bytes (off + 1) n := by
  obtain ⟨hlt, hb⟩ := List.getElem?_eq_some_iff.1 h
  unfold fieldAt
  rw [List.drop_eq_getElem_cons hlt, hb, List.take_succ_cons, leNat]

theorem fieldAt_lt (bytes : List Byte) (off n : Nat) : fieldAt bytes off n < 256 ^ n :=
  (leNat_lt _).trans_le (Nat.pow_le_pow_right (by decide) (List.length_take_le ..))

/-! ## Profile limits -/

theorem limitNat_eq {lo hi : Nat} (h : lo ≤ hi) (x : Nat) : limitNat lo hi x = max lo (min hi x) := by
  unfold limitNat
  split
  · omega
  · split <;> omega

theorem limitNat_zero (hi x : Nat) : limitNat 0 hi x = min hi x := by
  rw [limitNat_eq (Nat.zero_le hi), Nat.zero_max]

theorem limitOrZero_eq {lo hi : Nat} (h : lo ≤ hi) (x : Nat) : limitOrZero lo hi x = if x = 0 then 0 else max lo (min hi x) := by
  rw [limitOrZero, limitNat_eq h]

theorem limitOrZero_of_bounds {lo hi x : Nat} (h : x = 0 ∨ lo ≤ x ∧ x ≤ hi) : limitOrZero lo hi x = x := by
  unfold limitOrZero
  split
  · next h0 => exact h0.symm
  · next h0 =>
      obtain ⟨h1, h2⟩ := h.resolve_left h0
      exact limitNat_of_bounds lo hi x h1 h2

theorem limitProfile_hissMax (p : Profile) : (limitProfile p).hissMax = max (min 8388607 p.hissMin) (min 8388607 p.hissMax) := by
  show (if limitNat 0 8388607 p.hissMax < limitNat 0 8388607 p.hissMin then limitNat 0 8388607 p.hissMin
    else limitNat 0 8388607 p.hissMax) = _
  rw [limitNat_zero, limitNat_zero]
  split <;> omega

/-- A limited profile lies in its ranges (R40, R61, R90, R133). -/
theorem profileLimited_limitProfile (p : Profile) : ProfileLimited (limitProfile p) := by
  refine ⟨limitOrZero_bounds _ _ _ (by decide), limitOrZero_bounds _ _ _ (by decide), limitNat_bounds _ _ _ (by decide),
    (limitNat_bounds 0 2 _ (by decide)).2, limitNat_bounds _ _ _ (by decide), limitNat_bounds _ _ _ (by decide),
    (limitNat_bounds 0 3 _ (by decide)).2, limitNat_bounds _ _ _ (by decide), (limitNat_bounds 0 16 _ (by decide)).2,
    limitNat_bounds _ _ _ (by decide), limitNat_bounds _ _ _ (by decide), (limitNat_bounds 0 8388607 _ (by decide)).2,
    limitNat_bounds _ _ _ (by decide), ?_, ?_, (limitNat_bounds 0 256 _ (by decide)).2⟩
  · show limitNat 0 8388607 p.hissMin ≤ (limitProfile p).hissMax
    rw [limitProfile_hissMax, limitNat_zero]
    omega
  · show (limitProfile p).hissMax ≤ 8388607
    rw [limitProfile_hissMax]
    omega

/-- A profile within its ranges is held as written. -/
theorem limitProfile_of_limited {p : Profile} (h : ProfileLimited p) : limitProfile p = p := by
  obtain ⟨h1, h2, ⟨h3, h3'⟩, h4, ⟨h5, h5'⟩, ⟨h6, h6'⟩, h7, ⟨h8, h8'⟩, h9, ⟨h10, h10'⟩, ⟨h11, h11'⟩, h12, ⟨h13, h13'⟩, h14, h15, h16⟩ := h
  have hmin : p.hissMin ≤ 8388607 := h14.trans h15
  have hle : p.hissMin ≤ p.hissMax := h14
  have hfree : ∀ {hi x : Nat}, x ≤ hi → limitNat 0 hi x = x := fun hx => limitNat_of_bounds 0 _ _ (Nat.zero_le _) hx
  unfold limitProfile
  dsimp only
  rw [limitOrZero_of_bounds h1, limitOrZero_of_bounds h2, limitNat_of_bounds _ _ _ h3 h3', hfree h4, limitNat_of_bounds _ _ _ h5 h5',
    limitNat_of_bounds _ _ _ h6 h6', hfree h7, limitNat_of_bounds _ _ _ h8 h8', hfree h9, limitNat_of_bounds 1 6 p.splitShift h10 h10',
    limitNat_of_bounds 2 10 p.envShift h11 h11', limitNat_of_bounds 4 64 p.refMult h13 h13', hfree (x := p.gainFloor) h16,
    hfree (x := p.hissInitial) h12, hfree hmin, hfree (x := p.hissMax) h15, if_neg (by omega)]

theorem profileLimited_iff (p : Profile) : ProfileLimited p ↔ limitProfile p = p :=
  ⟨limitProfile_of_limited, fun h => h ▸ profileLimited_limitProfile p⟩

/-- Settles O59: the fields by `fieldAt_succ_of_some`, the limits field by field. -/
theorem recordsReadAndProfilesLimited : Obligations.RecordsReadAndProfilesLimited := by
  unfold Obligations.RecordsReadAndProfilesLimited
  refine ⟨fun bytes off n => ⟨fieldAt_zero .., ?field⟩, fun bytes => ⟨rfl, rfl, rfl, rfl, rfl, rfl, ?sequence, rfl, rfl, rfl, rfl, rfl, rfl,
    rfl, rfl, rfl, rfl, rfl⟩, fun bytes => ⟨rfl, rfl, rfl, rfl, rfl, rfl, rfl, rfl, rfl, rfl, rfl, rfl, rfl, rfl, rfl, rfl, rfl, rfl, rfl⟩,
    fun p => ⟨profileLimited_limitProfile p, profileLimited_iff p, ?clamped, rfl, rfl, rfl, limitOrZero_eq (by decide) _,
      limitOrZero_eq (by decide) _, limitNat_eq (by decide) _, limitNat_zero .., limitNat_eq (by decide) _, limitNat_eq (by decide) _,
      limitNat_zero .., limitNat_eq (by decide) _, limitNat_zero .., limitNat_eq (by decide) _, limitNat_eq (by decide) _,
      limitNat_eq (by decide) _, limitNat_zero .., limitNat_zero .., limitNat_zero .., limitProfile_hissMax p⟩⟩
  case field =>
    rcases Option.eq_none_or_eq_some bytes[off]? with h | ⟨b, h⟩
    · obtain ⟨h1, h2⟩ := fieldAt_succ_of_none h n
      rw [h, h1, h2]
    · rw [h, fieldAt_succ_of_some h n]
  case sequence =>
    show (BitVec.ofNat 32 (fieldAt bytes 0x08 4)).toNat = _
    rw [BitVec.toNat_ofNat]
    exact Nat.mod_eq_of_lt (fieldAt_lt bytes 8 4)
  case clamped => rw [profileClamped_eq, decide_eq_true_eq, profileLimited_iff]

end Sys2Proof.Machine
end

section
/-! PROOFS. The signatures (R108 to R111) and the report tallies of voted and released samples (R16, R77, R101, R106). -/

namespace Sys2Proof.Machine

/-! ## The signature register -/

theorem crcShift_eq (r : Word32) : crcShift r = (r >>> 1) ^^^ (if r.getLsbD 0 then 0xEDB88320#32 else 0#32) := by
  unfold crcShift
  split
  · rfl
  · simp

/-- The bit that a shift drops shows in the top bit of the register. -/
theorem crcShift_getLsbD_31 (r : Word32) : (crcShift r).getLsbD 31 = r.getLsbD 0 := by
  rw [crcShift_eq, BitVec.getLsbD_xor, BitVec.getLsbD_ushiftRight, BitVec.getLsbD_of_ge r 32 (by decide), Bool.false_xor]
  cases r.getLsbD 0 <;> decide

theorem crcShift_injective : Function.Injective crcShift := by
  intro r s h
  have h0 : r.getLsbD 0 = s.getLsbD 0 := by rw [← crcShift_getLsbD_31, h, crcShift_getLsbD_31]
  rw [crcShift_eq, crcShift_eq, h0] at h
  have hs : r >>> 1 = s >>> 1 := (BitVec.xor_left_inj _).1 h
  refine BitVec.eq_of_getLsbD_eq fun i _ => ?_
  cases i with
  | zero => exact h0
  | succ i => simpa [Nat.add_comm] using congrArg (fun w => BitVec.getLsbD w i) hs

theorem crcByte_injective_left (b : Byte) : Function.Injective fun r => crcByte r b := by
  intro r s h
  have hs := crcShift_injective
  have := hs (hs (hs (hs (hs (hs (hs (hs h)))))))
  exact (BitVec.xor_left_inj _).1 this

theorem crcByte_injective_right (r : Word32) : Function.Injective (crcByte r) := by
  intro b c h
  have hs := crcShift_injective
  have := (BitVec.xor_right_inj _).1 (hs (hs (hs (hs (hs (hs (hs (hs h))))))))
  have := congrArg BitVec.toNat this
  rw [BitVec.toNat_setWidth, BitVec.toNat_setWidth] at this
  bv_omega

theorem crcBytes_append (r : Word32) (xs ys : List Byte) : crcBytes r (xs ++ ys) = crcBytes (crcBytes r xs) ys :=
  List.foldl_append ..

theorem crcBytes_injective (bytes : List Byte) : Function.Injective fun r => crcBytes r bytes := by
  induction bytes with
  | nil => exact fun _ _ h => h
  | cons b bytes ih => exact fun r s h => crcByte_injective_left b (ih h)

/-- Two sequences that differ in one byte alone have different signatures. -/
theorem crcFinish_ne_of_byte_ne (r : Word32) (xs ys : List Byte) {b c : Byte} (h : b ≠ c) :
    crcFinish (crcBytes r (xs ++ b :: ys)) ≠ crcFinish (crcBytes r (xs ++ c :: ys)) := by
  intro he
  have he : crcBytes r (xs ++ b :: ys) = crcBytes r (xs ++ c :: ys) := BitVec.not_inj.1 he
  rw [crcBytes_append, crcBytes_append] at he
  exact h (crcByte_injective_right _ (crcBytes_injective ys he))

/-- The bytes of a voted value read back as the value (R109). -/
theorem votedBytes_value {x : Int} (h : InRange x) : ∃ b0 b1 b2 : Byte, votedBytes (.value x) = [b0, b1, b2] ∧ (b2 ++ b1 ++ b0).toInt = x := by
  refine ⟨_, _, _, rfl, ?_⟩
  rw [← signedValue_leNat_three]
  exact signedValue_leNat_leBytes (k := 3) (n := 3) (by decide) (by have := h.1; norm_num; omega) (by have := h.2; norm_num; omega)

/-! ## Completion of spans (R81) -/

/-- The tallies that leave with a completion are handed on. -/
theorem completeSpans_hands (ts : List Tally) (r : Run) (h : r.ctx.tallies = ts) : ∃ es, (completeSpans ts r).emits = r.emits ++ es ∧
    ∀ z ∈ ts, z ∈ (completeSpans ts r).ctx.tallies ∨ .complete z.start z ∈ es := by
  induction ts generalizing r with
  | nil => exact ⟨[], by simp [completeSpans], by simp⟩
  | cons t ts ih =>
      unfold completeSpans
      split
      · obtain ⟨es, hes, hall⟩ := ih (leaveOldest t r) (congrArg List.tail h)
        refine ⟨.complete t.start t :: es, ?_, fun z hz => ?_⟩
        · rw [hes]; simp [leaveOldest, emitRun]
        · rcases List.mem_cons.1 hz with rfl | hz
          · exact Or.inr (List.mem_cons_self ..)
          · exact (hall z hz).imp_right (List.mem_cons_of_mem _)
      · exact ⟨[], by simp, fun z hz => Or.inl (h ▸ hz)⟩

/-! ## The release of a sample (R79, R106, R110) -/

/-- A span's tallies once one of its samples has been released. -/
def releasedTally (h : Held) (w : Sample) (r : Run) (y : Tally) : Tally :=
  let e := hissSample h.span h.refEnd w r.ctx.hiss
  let f := formatSample r.ctx.config e.1
  recordEnd h.pos e.2.2.th (countOutput (e.2.1 || f.2) f.1 y)

theorem recordEnd_eq (pos : Nat) (th : Int) (y : Tally) : recordEnd pos th y = { y with
    thEnd := if y.start + y.count = pos + 1 then some (th / 256).toNat else y.thEnd } := by
  unfold recordEnd
  split <;> rfl

theorem releasedTally_start (h : Held) (w : Sample) (r : Run) (y : Tally) : (releasedTally h w r y).start = y.start := by
  unfold releasedTally
  dsimp only
  rw [recordEnd_eq]
  rfl

/-- The run of a released sample before spans are completed: its container handed on and its tallies counted. -/
def formattedRun (h : Held) (w : Sample) (r : Run) : Run :=
  tallyRun h.span (releasedTally h w r) (emitRun (.container h.span (h.pos - h.span)
    (formatSample r.ctx.config (hissSample h.span h.refEnd w r.ctx.hiss).1).1)
      { r with ctx := { r.ctx with
        hiss := (hissSample h.span h.refEnd w r.ctx.hiss).2.2, click := { r.ctx.click with lastOut := some w } } })

theorem releaseSample_eq (h : Held) (w : Sample) (r : Run) :
    releaseSample h w r = completeSpans (formattedRun h w r).ctx.tallies (formattedRun h w r) := rfl

/-- What the release of a sample hands on, and what becomes of its span's tallies. -/
theorem releaseSample_hands {h : Held} {w : Sample} {r : Run} {y : Tally}
    (hy : r.ctx.tallies.find? (fun t => decide (t.start = h.span)) = some y) :
    (releaseSample h w r).ctx.hiss = (hissSample h.span h.refEnd w r.ctx.hiss).2.2 ∧
    ∃ rest : List Emit, (releaseSample h w r).emits = r.emits ++
        .container h.span (h.pos - h.span) (formatSample r.ctx.config (hissSample h.span h.refEnd w r.ctx.hiss).1).1 :: rest ∧
      (releasedTally h w r y ∈ (releaseSample h w r).ctx.tallies ∨ .complete h.span (releasedTally h w r y) ∈ rest) := by
  have hstart : y.start = h.span := by simpa using List.find?_some hy
  obtain ⟨m, hm⟩ : ∃ m, m = formattedRun h w r := ⟨_, rfl⟩
  obtain ⟨-, hhiss, -⟩ := completeSpans_keeps m.ctx.tallies m
  obtain ⟨es, hes, hall⟩ := completeSpans_hands m.ctx.tallies m rfl
  have hfind : m.ctx.tallies.find? (fun t => decide (t.start = h.span)) = some (releasedTally h w r y) := by
    rw [hm]; exact find_onTally h.span _ (releasedTally_start h w r) _ _ hy
  rw [releaseSample_eq, ← hm]
  refine ⟨hhiss.trans (by rw [hm]; rfl), es, ?_, ?_⟩
  · rw [hes, hm]
    show (r.emits ++ [_]) ++ es = _
    rw [List.append_assoc]
    rfl
  · have := hall _ (List.mem_of_find?_eq_some hfind)
    rwa [releasedTally_start, hstart] at this

/-! ## The voted sample's tallies -/

/-- A span's tallies once one of its samples has been voted. -/
def votedTally (sp : SpanInfo) (row : LaneRow) (r : Run) : Tally → Tally :=
  countSample (frontVote row r).1 (frontVote row r).2.2
    (if r.ctx.position = lastPosition sp then some (activeMask r.ctx.config (frontVote row r).2.1) else none)
    (frontTrack sp r).1.overrun
    (cancelHum r.ctx.profile.perfShift r.ctx.profile.linePeriod (frontTrack sp r).1.bin
      (if (frontTrack sp r).1.splice then spliceReset r.ctx.profile.spliceHumReset r.ctx.hum else r.ctx.hum) (frontVote row r).1.v).2

theorem frontStages_find {sp : SpanInfo} {row : LaneRow} {r : Run} {y : Tally}
    (hy : r.ctx.tallies.find? (fun t => decide (t.start = sp.start)) = some y) :
    (frontStages sp row r).2.ctx.tallies.find? (fun t => decide (t.start = sp.start)) = some (votedTally sp row r y) :=
  find_onTally sp.start (votedTally sp row r) (fun _ => rfl) _ _ hy

/-- A span's tallies once one of its samples has been passed (R77). -/
def passedTally (h : Held) (y : Tally) : Tally :=
  { y with voidPassed := y.voidPassed + if isVoid h.u = true then 1 else 0 }

/-- A span's tallies once one of its samples has been repaired (R77). -/
def repairedTally (h : Held) (y : Tally) : Tally :=
  { y with repaired := y.repaired + 1, voidRepaired := y.voidRepaired + if isVoid h.u = true then 1 else 0 }

/-- What a release hands on: the output, and the tallies, in the context or with their completion. -/
def Hands (h : Held) (w : Sample) (y : Tally) (r released : Run) : Prop :=
  released.ctx.hiss = (hissSample h.span h.refEnd w r.ctx.hiss).2.2 ∧
  ∃ rest : List Emit, released.emits = r.emits ++ rest ∧
    (releasedTally h w r y ∈ released.ctx.tallies ∨ .complete h.span (releasedTally h w r y) ∈ rest)

theorem hands_releaseSample {h : Held} {w : Sample} {r : Run} {y : Tally}
    (hy : r.ctx.tallies.find? (fun t => decide (t.start = h.span)) = some y) : Hands h w y r (releaseSample h w r) := by
  obtain ⟨hhiss, rest, hemits, hz⟩ := releaseSample_hands (w := w) hy
  exact ⟨hhiss, _, hemits, hz.imp_right (List.mem_cons_of_mem _)⟩

theorem hands_passSample {h : Held} {r : Run} {y : Tally} (hy : r.ctx.tallies.find? (fun t => decide (t.start = h.span)) = some y) :
    Hands h h.u (passedTally h y) r (passSample h r) := by
  unfold passSample passedTally
  split
  · next hv =>
      have hf := find_onTally h.span (fun t => { t with voidPassed := t.voidPassed + 1 }) (fun _ => rfl) _ _ hy
      exact hands_releaseSample (r := tallyRun h.span (fun t => { t with voidPassed := t.voidPassed + 1 }) r) hf
  · exact hands_releaseSample hy

theorem repairedTally_eq (h : Held) : repairedTally h = fun t => { t with
    repaired := t.repaired + 1, voidRepaired := if isVoid h.u then t.voidRepaired + 1 else t.voidRepaired } := by
  funext t
  unfold repairedTally
  split <;> rfl

theorem hands_repairSample {h : Held} {x : Int} {r : Run} {y : Tally}
    (hy : r.ctx.tallies.find? (fun t => decide (t.start = h.span)) = some y) :
    Hands h (.value x) (repairedTally h y) r (repairSample h x r) := by
  unfold repairSample
  rw [← repairedTally_eq]
  exact hands_releaseSample (r := tallyRun h.span (repairedTally h) r) (find_onTally h.span (repairedTally h) (fun _ => rfl) _ _ hy)

/-- Settles O58: `crcShift_injective` for the register, `votedTally` and `releasedTally` for what enters it. -/
theorem signaturesCovered : Obligations.SignaturesCovered := by
  unfold Obligations.SignaturesCovered
  refine ⟨by decide +kernel, fun r xs ys b c => ⟨crcBytes_append .., crcFinish_ne_of_byte_ne r xs ys⟩, fun o => rfl,
    fun x => votedBytes_value, fun sp row r y hy => ⟨_, frontStages_find hy, rfl, rfl⟩, fun h w r y hy => ?release⟩
  obtain ⟨-, rest, hemits, hz⟩ := releaseSample_hands (w := w) hy
  have hstart : y.start = h.span := by simpa using List.find?_some hy
  refine ⟨_, rest, _, rfl, hemits, hz, (releasedTally_start ..).trans hstart, ?_⟩
  unfold releasedTally
  dsimp only
  rw [recordEnd_eq]
  exact ⟨rfl, rfl, rfl⟩

theorem isDisputed_eq (b : Bool) (n : Nat) : isDisputed b n = n + if b = true then 1 else 0 := by
  cases b <;> rfl

/-- Settles O55: the tallies of `votedTally` and of `releasedTally`, field by field. -/
theorem reportTalliesCounted : Obligations.ReportTalliesCounted := by
  unfold Obligations.ReportTalliesCounted
  refine ⟨fun sp row r y vote lanes change attrs marks hum hc ht hh hy => ?voted,
    fun h w r released y repaired voidRepaired voidPassed hy hcase => ?released⟩
  case voted =>
    obtain ⟨rfl, rfl, rfl⟩ : vote = (frontVote row r).1 ∧ lanes = (frontVote row r).2.1 ∧ change = (frontVote row r).2.2 := by
      unfold frontVote; rw [hc]; exact ⟨rfl, rfl, rfl⟩
    obtain rfl : attrs = (frontTrack sp r).1 := by unfold frontTrack; rw [ht]
    subst hh
    refine ⟨?_, crcBytes y.votedCrc (votedBytes (frontVote row r).1.v), (frontStages_find hy).trans (congrArg some ?_)⟩
    · show isDisputed ((frontVote row r).2.2 != .none) r.laneChanges = _
      rw [isDisputed_eq]
      simp
    · unfold votedTally countSample
      simp only [isDisputed_eq, beq_iff_eq]
      congr 1
      change _ = if r.ctx.position = lastPosition sp then _ else _
      by_cases hl : r.ctx.position = lastPosition sp
      · rw [if_pos hl, if_pos hl]
      · rw [if_neg hl, if_neg hl]
  case released =>
    obtain ⟨y1, hy1, hclick, hhiss, rest, hemits, hz⟩ : ∃ y1, y1 = { y with
        repaired := y.repaired + repaired, voidRepaired := y.voidRepaired + voidRepaired
        voidPassed := y.voidPassed + voidPassed } ∧
        released.ctx.click = { r.ctx.click with lastOut := some w } ∧ Hands h w y1 r released := by
      rcases hcase with ⟨rfl, rfl, rfl, rfl, rfl⟩ | ⟨x, rfl, rfl, rfl, rfl, rfl⟩
      · exact ⟨passedTally h y, rfl, passSample_click h r, hands_passSample hy⟩
      · exact ⟨repairedTally h y, rfl, repairSample_click h x r, hands_repairSample hy⟩
    refine ⟨hclick, hhiss, _, crcBytes y.outputCrc (formatSample r.ctx.config (hissSample h.span h.refEnd w r.ctx.hiss).1).1, rest,
      hemits, hz, ?_⟩
    unfold releasedTally
    dsimp only
    rw [recordEnd_eq, hy1]
    unfold countOutput
    simp only [Bool.or_eq_true]
    congr 1
    split <;> rfl

end Sys2Proof.Machine
end

section
/-! PROOFS. A closed window is repaired or passed, and a flush releases everything (R71 to R76, R82, R84, R85). -/

namespace Sys2Proof.Machine

/-! ## Released samples and the Click Repairer's state (R79) -/

/-- The Click Repairer's state is the same but for the last output. -/
def SameButLast (c d : ClickState) : Prop :=
  ∃ lo, d = { c with lastOut := lo }

theorem SameButLast.refl (c : ClickState) : SameButLast c c := ⟨c.lastOut, rfl⟩

theorem SameButLast.trans {a b c : ClickState} (h : SameButLast a b) (g : SameButLast b c) : SameButLast a c := by
  obtain ⟨_, rfl⟩ := h
  obtain ⟨_, rfl⟩ := g
  exact ⟨_, rfl⟩

theorem sameButLast_passAll (hs : List Held) (r : Run) : SameButLast r.ctx.click (passAll hs r).ctx.click := by
  induction hs generalizing r with
  | nil => exact .refl _
  | cons h hs ih => exact SameButLast.trans ⟨_, passSample_click h r⟩ (ih _)

theorem sameButLast_repairAll (left right : Option Int) (len i : Nat) (hs : List Held) (r : Run) :
    SameButLast r.ctx.click (repairAll left right len i hs r).ctx.click := by
  induction hs generalizing i r with
  | nil => exact .refl _
  | cons h hs ih => exact SameButLast.trans ⟨_, repairSample_click h _ r⟩ (ih _ _)

/-- The run with other held samples. -/
def withHeld (hs : List Held) (r : Run) : Run :=
  clickRun (fun c => { c with held := hs }) r

theorem releaseWhile_eq (within : Nat → Bool) (r : Run) : releaseWhile within r =
    passAll (r.ctx.click.held.takeWhile fun h => within h.pos) (withHeld (r.ctx.click.held.dropWhile fun h => within h.pos) r) := rfl

theorem releaseWhile_click (within : Nat → Bool) (r : Run) :
    SameButLast { r.ctx.click with held := r.ctx.click.held.dropWhile fun h => within h.pos } (releaseWhile within r).ctx.click :=
  sameButLast_passAll _ _

theorem takeWhile_of_split {α : Type} {p : α → Bool} {out rest : List α} (ho : ∀ x ∈ out, p x = true) (hr : ∀ x ∈ rest, p x = false) :
    (out ++ rest).takeWhile p = out ∧ (out ++ rest).dropWhile p = rest := by
  have hrest : rest.takeWhile p = [] ∧ rest.dropWhile p = rest := by
    cases rest with
    | nil => exact ⟨rfl, rfl⟩
    | cons x xs =>
        have hx : p x = false := hr x (List.mem_cons_self ..)
        exact ⟨List.takeWhile_cons_of_neg (by simp [hx]), List.dropWhile_cons_of_neg (by simp [hx])⟩
  rw [List.takeWhile_append_of_pos ho, List.dropWhile_append_of_pos ho, hrest.1, hrest.2, List.append_nil]
  exact ⟨rfl, rfl⟩

/-! ## The closing of a window (R71) -/

/-- The content of a window that closes at `e` (R72). -/
def closedContent (w : Window) (e : Nat) : Content :=
  (w.tail.filter fun x => decide (x.pos ≤ e)).foldl addContent w.content

/-- The run of a closed window before its samples are released: its entry handed on, the window gone, spans completed. -/
def closedRun (w : Window) (e : Nat) (r : Run) : Run :=
  completeRun (clickRun (fun c => { c with
      window := none, prevEnd := some e, held := r.ctx.click.held.dropWhile fun h => decide (h.pos ≤ e) })
    (handEntry w.span w.start (e + 1 - w.start) (windowKind w.long (closedContent w e)) (closedContent w e) r))

/-- The right anchor of a window (R74, R82). -/
def rightAnchor (flush : Bool) (rest : List Held) : Option Int :=
  if flush then none else anchorValue (rest.head?.map fun h => h.u)

theorem closeWindow_eq (w : Window) (e : Nat) (flush : Bool) (r : Run) : closeWindow w e flush r =
    if windowKind w.long (closedContent w e) = .prot ∨ windowKind w.long (closedContent w e) = .long then
      passAll (r.ctx.click.held.takeWhile fun h => decide (h.pos ≤ e)) (closedRun w e r)
    else repairAll (anchorValue w.left) (rightAnchor flush (r.ctx.click.held.dropWhile fun h => decide (h.pos ≤ e)))
      (e + 1 - w.start) 1 (r.ctx.click.held.takeWhile fun h => decide (h.pos ≤ e)) (closedRun w e r) := by
  unfold closeWindow closedRun rightAnchor
  dsimp only
  rw [show (w.tail.filter fun h => decide (h.pos ≤ e)).foldl addContent w.content = closedContent w e from rfl,
    (handEntry_keeps ..).1]

/-- The Click Repairer's state once a window has closed. -/
def closedClick (e : Nat) (c : ClickState) : ClickState :=
  { c with window := none, prevEnd := some e, held := c.held.dropWhile fun h => decide (h.pos ≤ e) }

theorem closedRun_click (w : Window) (e : Nat) (r : Run) : (closedRun w e r).ctx.click = closedClick e r.ctx.click := by
  exact (completeSpans_keeps _ _).1.trans (congrArg (fun c : ClickState => { c with
    window := none, prevEnd := some e, held := r.ctx.click.held.dropWhile fun h => decide (h.pos ≤ e) }) (handEntry_keeps ..).1)

theorem closeWindow_click (w : Window) (e : Nat) (flush : Bool) (r : Run) :
    SameButLast (closedClick e r.ctx.click) (closeWindow w e flush r).ctx.click := by
  rw [closeWindow_eq, ← closedRun_click w]
  split
  · exact sameButLast_passAll _ _
  · exact sameButLast_repairAll _ _ _ _ _ _

/-! ## The line between the anchors (R75) -/

/-- The line's value rounds half up. -/
theorem lineValue_rounds (a b : Int) (len i : Nat) :
    2 * ((len : Int) + 1) * (lineValue a b len i - a) ≤ 2 * (b - a) * i + (len + 1) ∧
      2 * (b - a) * i + (len + 1) < 2 * ((len : Int) + 1) * (lineValue a b len i - a + 1) := by
  have hpos : (0 : Int) < 2 * ((len : Int) + 1) := by omega
  have e : lineValue a b len i - a = (2 * (b - a) * i + ((len : Int) + 1)) / (2 * ((len : Int) + 1)) := by
    unfold lineValue; omega
  rw [e]
  exact ⟨Int.mul_ediv_self_le (by omega), Int.lt_mul_ediv_self_add hpos |>.trans_eq (by ring)⟩

theorem lineValue_between {a b : Int} {len i : Nat} (h1 : 1 ≤ i) (h2 : i ≤ len) :
    min a b ≤ lineValue a b len i ∧ lineValue a b len i ≤ max a b := by
  obtain ⟨hlo, hhi⟩ := lineValue_rounds a b len i
  obtain ⟨v, hv⟩ : ∃ v, v = lineValue a b len i := ⟨_, rfl⟩
  rw [← hv] at hlo hhi ⊢
  have hi1 : (1 : Int) ≤ i := by exact_mod_cast h1
  have hi2 : (i : Int) ≤ len := by exact_mod_cast h2
  rcases le_total a b with hab | hab
  · rw [min_eq_left hab, max_eq_right hab]
    constructor <;> nlinarith
  · rw [min_eq_right hab, max_eq_left hab]
    constructor <;> nlinarith

/-- Between equal anchors the line is flat. -/
theorem lineValue_flat (a : Int) (len i : Nat) : lineValue a a len i = a := by
  obtain ⟨hlo, hhi⟩ := lineValue_rounds a a len i
  have hpos : (0 : Int) < (len : Int) + 1 := by omega
  have h1 : lineValue a a len i - a < 1 := by nlinarith
  have h2 : -1 < lineValue a a len i - a := by nlinarith
  omega

theorem repairValue_left (a : Int) (len i : Nat) : repairValue (some a) none len i = a := lineValue_flat a len i

theorem repairValue_right (b : Int) (len i : Nat) : repairValue none (some b) len i = b := lineValue_flat b len i

/-! ## The flush (R82, R83) -/

theorem releaseAll_eq (r : Run) : releaseWhile (fun _ => true) r = passAll r.ctx.click.held (withHeld [] r) := by
  obtain ⟨h1, h2⟩ := takeWhile_of_split (p := fun _ : Held => true) (out := r.ctx.click.held) (rest := []) (fun _ _ => rfl)
    (by simp)
  rw [List.append_nil] at h1 h2
  rw [releaseWhile_eq, h1, h2]

theorem flushClick_of_none {n : Nat} {r : Run} (h : r.ctx.click.window = none) :
    flushClick n r = passAll r.ctx.click.held (withHeld [] r) := by
  unfold flushClick
  rw [h]
  exact releaseAll_eq r

theorem flushClick_of_some {n : Nat} {r : Run} {w : Window} (h : r.ctx.click.window = some w) : flushClick n r =
    passAll (closeWindow w (min (w.nlast + w.guard) n) true r).ctx.click.held
      (withHeld [] (closeWindow w (min (w.nlast + w.guard) n) true r)) := by
  unfold flushClick
  rw [h]
  exact releaseAll_eq _

/-- The Click Repairer's state after a flush: nothing held, no window, the previous window's end the flushed window's. -/
theorem flushClick_click (n : Nat) (r : Run) : ∃ pe lo, (flushClick n r).ctx.click =
    { r.ctx.click with held := [], window := none, prevEnd := pe, lastOut := lo } ∧
      (pe = r.ctx.click.prevEnd ∨ ∃ w, pe = some (min (w.nlast + w.guard) n) ∧ r.ctx.click.window = some w) := by
  rcases Option.eq_none_or_eq_some r.ctx.click.window with h | ⟨w, h⟩
  · rw [flushClick_of_none h]
    obtain ⟨lo, hlo⟩ := sameButLast_passAll r.ctx.click.held (withHeld [] r)
    refine ⟨_, lo, hlo.trans ?_, Or.inl rfl⟩
    rw [← h]
    rfl
  · rw [flushClick_of_some h]
    obtain ⟨m, hm⟩ : ∃ m, m = closeWindow w (min (w.nlast + w.guard) n) true r := ⟨_, rfl⟩
    obtain ⟨lo, hlo⟩ := sameButLast_passAll m.ctx.click.held (withHeld [] m)
    obtain ⟨_, hc⟩ := hm ▸ closeWindow_click w (min (w.nlast + w.guard) n) true r
    rw [← hm]
    exact ⟨_, lo, hlo.trans (congrArg (fun c : ClickState => { c with held := [], lastOut := lo }) hc), Or.inr ⟨w, rfl, h⟩⟩

/-- Settles O53: `closedRun` and `repairAll_eq_foldl` for a closed window, `flushClick_of_some` for a flush, `lineValue_between`
for the line. -/
theorem windowRepairedOrPassed : Obligations.WindowRepairedOrPassed := by
  unfold Obligations.WindowRepairedOrPassed
  refine ⟨fun w e flush r inside rest content kind right hheld hin hout hcontent hkind hnone hsome => ?close,
    fun n r => ?flush, fun a b len i h1 h2 => ⟨⟨?_, ?_, (lineValue_between h1 h2).1, (lineValue_between h1 h2).2, ?inRange⟩,
      repairValue_left .., repairValue_right .., rfl⟩⟩
  case close =>
    obtain ⟨htake, hdrop⟩ := takeWhile_of_split (p := fun h : Held => decide (h.pos ≤ e)) (out := inside) (rest := rest)
      (fun x hx => by simpa using hin x hx) (fun x hx => by simpa using hout x hx)
    rw [← hheld] at htake hdrop
    have hright : right = rightAnchor flush rest := by
      unfold rightAnchor
      cases flush with
      | true => exact hnone (Or.inl rfl)
      | false =>
          cases rest with
          | nil => exact hnone (Or.inr rfl)
          | cons x xs =>
              rw [hsome rfl x xs rfl]
              show _ = anchorValue (some x.u)
              cases x.u <;> rfl
    have hcontent : content = closedContent w e := hcontent
    subst hkind hcontent
    have hclick := closedRun_click w e r
    unfold closedClick at hclick
    rw [hdrop] at hclick
    obtain ⟨-, hhiss, hconfig, hlive, ⟨es, hes, hall⟩, hsuf⟩ := completeSpans_keeps _ (clickRun (fun c => { c with
        window := none, prevEnd := some e, held := r.ctx.click.held.dropWhile fun h => decide (h.pos ≤ e) })
      (handEntry w.span w.start (e + 1 - w.start) (windowKind w.long (closedContent w e)) (closedContent w e) r))
    obtain ⟨-, hh, hc, hl⟩ := handEntry_keeps w.span w.start (e + 1 - w.start) (windowKind w.long (closedContent w e)) (closedContent w e) r
    refine ⟨closedRun w e r, es, hclick, hhiss.trans hh, hconfig.trans hc, hlive.trans hl, hes, hall, hsuf, fun hk => ?_, fun hp hl => ?_⟩
    · rw [closeWindow_eq, if_pos hk, htake]
      rfl
    · rw [closeWindow_eq, if_neg (by simp [hp, hl]), htake, hdrop, repairAll_eq_foldl, hright]
      congr 1
      funext t x
      congr 1
      rcases w.left with _ | (a | o) <;> rcases rightAnchor flush rest with _ | b
      · rfl
      · exact repairValue_right ..
      · exact repairValue_left ..
      · rfl
      · rfl
      · exact repairValue_right ..
  case flush =>
    obtain ⟨pe, lo, h, -⟩ := flushClick_click n r
    rw [h]
    refine ⟨rfl, rfl, rfl, rfl, fun hw => flushClick_of_none hw, fun w r1 hw hr1 => ?_⟩
    subst hr1
    exact flushClick_of_some hw
  case inRange =>
    intro ha hb
    have := lineValue_between (a := a) (b := b) h1 h2
    unfold InRange at ha hb ⊢
    omega
  · exact (lineValue_rounds a b len i).1
  · exact (lineValue_rounds a b len i).2

end Sys2Proof.Machine
end

section
/-! PROOFS. Where a repair window opens, how it grows and closes, and what is released outside it (R67 to R71, R73, R78). -/

namespace Sys2Proof.Machine

/-! ## The start of a window (R68) -/

section start

variable {guard n : Nat} {c : ClickState} {x : Held} {xs : List Held}

theorem windowStart_eq (hc : c.held = x :: xs) : windowStart guard c n = max (n - guard) (max ((c.prevEnd.map (· + 1)).getD 0) x.pos) := by
  unfold windowStart
  rw [hc]
  cases c.prevEnd <;> rfl

theorem windowStart_le (hc : c.held = x :: xs) (hx : x.pos ≤ n) (hp : ∀ e, c.prevEnd = some e → e < n) : windowStart guard c n ≤ n := by
  rw [windowStart_eq hc]
  cases h : c.prevEnd with
  | none => simp; omega
  | some e =>
      have := hp e h
      simp only [Option.map_some, Option.getD_some]
      omega

theorem le_windowStart (hc : c.held = x :: xs) : n ≤ windowStart guard c n + guard ∧ x.pos ≤ windowStart guard c n ∧
    ∀ e, c.prevEnd = some e → e < windowStart guard c n := by
  rw [windowStart_eq hc]
  refine ⟨by omega, by omega, fun e he => ?_⟩
  rw [he]
  simp only [Option.map_some, Option.getD_some]
  omega

/-- The start is the sample less the guard, the position after the previous window, or the oldest held sample. -/
theorem windowStart_attained (hc : c.held = x :: xs) : windowStart guard c n + guard = n ∨
    (c.prevEnd = some (windowStart guard c n - 1) ∧ 0 < windowStart guard c n) ∨ x.pos = windowStart guard c n := by
  rw [windowStart_eq hc]
  cases h : c.prevEnd with
  | none =>
      simp only [Option.map_none, Option.getD_none]
      omega
  | some e =>
      simp only [Option.map_some, Option.getD_some, Option.some.injEq]
      omega

end start

/-! ## The opening of a window (R68, R70) -/

/-- The window that a flagged sample opens at `s` with the held samples `hs` from there on. -/
def openedWindow (p : Profile) (h : Held) (s span : Nat) (left : Option Sample) (hs : List Held) : Window :=
  { start := s, span := span, nlast := h.pos, quiet := 0, long := tooLong s h.pos p.guard p.repairMax
    guard := p.guard, longest := p.repairMax, left := left, content := hs.foldl addContent emptyContent, tail := [] }

theorem passAll_append (hs : List Held) (x : Held) (r : Run) : passAll (hs ++ [x]) r = passSample x (passAll hs r) := by
  unfold passAll
  rw [List.foldl_append]
  rfl

/-- The last output after samples have been passed is the last one's. -/
theorem passAll_lastOut (hs : List Held) (r : Run) :
    (passAll hs r).ctx.click.lastOut = (hs.getLast?.map fun x => some x.u).getD r.ctx.click.lastOut := by
  induction hs using List.reverseRecOn with
  | nil => rfl
  | append_singleton hs x _ =>
      rw [passAll_append, passSample_click, List.getLast?_concat]
      rfl

theorem dropWhile_cons_not {α : Type} {p : α → Bool} {l rest : List α} {x : α} (h : l.dropWhile p = x :: rest) : p x = false := by
  have := List.head?_dropWhile_not p l
  rw [h] at this
  exact this

/-- The state when a flagged sample opens a window. -/
theorem openWindow_eq {p : Profile} {h first : Held} {rest : List Held} {r : Run}
    (hd : (r.ctx.click.held.dropWhile fun x => decide (x.pos < windowStart p.guard r.ctx.click h.pos)) = first :: rest) :
    openWindow p h r = clickRun (fun c => { c with
      window := some (openedWindow p h (windowStart p.guard r.ctx.click h.pos) first.span c.lastOut (first :: rest)) })
        (passAll (r.ctx.click.held.takeWhile fun x => decide (x.pos < windowStart p.guard r.ctx.click h.pos))
          (withHeld (first :: rest) r)) := by
  have hr : releaseWhile (fun q => decide (q < windowStart p.guard r.ctx.click h.pos)) r =
      passAll (r.ctx.click.held.takeWhile fun x => decide (x.pos < windowStart p.guard r.ctx.click h.pos))
        (withHeld (first :: rest) r) := by
    rw [releaseWhile_eq, hd]
  unfold openWindow
  dsimp only
  rw [hr]
  obtain ⟨lo, hclick⟩ := sameButLast_passAll (r.ctx.click.held.takeWhile fun x => decide (x.pos < windowStart p.guard r.ctx.click h.pos))
    (withHeld (first :: rest) r)
  have hheld : (passAll (r.ctx.click.held.takeWhile fun x => decide (x.pos < windowStart p.guard r.ctx.click h.pos))
    (withHeld (first :: rest) r)).ctx.click.held = first :: rest := by rw [hclick]; rfl
  rw [hheld]
  rfl

/-! ## The growth of a window (R69, R70) -/

section grow

variable {p : Profile} {h : Held} {w : Window} {r : Run}

theorem updateWindow_of_none (hw : r.ctx.click.window = none) : updateWindow p h r = if h.flagged then openWindow p h r else r := by
  unfold updateWindow
  rw [hw]
  rfl

theorem updateWindow_of_limit (hw : r.ctx.click.window = some w) (hp : h.pos = w.start + 4096) :
    updateWindow p h r = noWindow p h (closeWindow w (w.start + 4095) false r) := by
  unfold updateWindow
  rw [hw]
  exact if_pos hp

theorem updateWindow_of_flagged (hw : r.ctx.click.window = some w) (hp : h.pos ≠ w.start + 4096) (hf : h.flagged = true) :
    updateWindow p h r = clickRun (fun c => { c with window := some (growWindow h w) }) r := by
  unfold updateWindow
  rw [hw]
  dsimp only
  rw [if_neg (show h.pos ≠ w.start + Config.windowLimit from hp), if_pos hf]

theorem updateWindow_of_quiet (hw : r.ctx.click.window = some w) (hp : h.pos ≠ w.start + 4096) (hf : h.flagged = false) :
    updateWindow p h r = if w.quiet = 3 then closeWindow (quietWindow h w) (w.nlast + w.guard) false r
      else clickRun (fun c => { c with window := some (quietWindow h w) }) r := by
  have hq : (quietWindow h w).quiet = 4 ↔ w.quiet = 3 := by show w.quiet + 1 = 4 ↔ _; omega
  unfold updateWindow
  rw [hw]
  dsimp only
  rw [if_neg (show h.pos ≠ w.start + Config.windowLimit from hp), if_neg (by simp [hf])]
  simp only [hq]
  rfl

theorem growWindow_content (h : Held) (w : Window) : (growWindow h w).content = (w.tail ++ [h]).foldl addContent w.content := by
  rw [List.foldl_append]
  rfl

end grow

/-! ## The releases after a sample (R78) -/

theorem releaseAfter_of_open {g c : Nat} {r : Run} (h : ∀ w, r.ctx.click.window = some w → w.long = true) :
    releaseAfter g c r = releaseWhile (fun q => decide (q + g ≤ c)) r := by
  unfold releaseAfter
  rcases Option.eq_none_or_eq_some r.ctx.click.window with hw | ⟨w, hw⟩
  · rw [hw]
  · rw [hw]
    exact if_pos (h w hw)

theorem releaseAfter_of_short {g c : Nat} {r : Run} {w : Window} (hw : r.ctx.click.window = some w) (hl : w.long = false) :
    releaseAfter g c r = r := by
  unfold releaseAfter
  rw [hw]
  exact if_neg (by simp [hl])

/-- Settles O52: `openWindow_eq` with the window's start, `updateWindow` by its branches, and the releases. -/
theorem windowsOpenGrowAndClose : Obligations.WindowsOpenGrowAndClose := by
  unfold Obligations.WindowsOpenGrowAndClose
  refine ⟨fun p h before r hw hheld hsorted hprev => ⟨fun hf => ?unflagged, fun hf => ?opens⟩,
    fun p h w r hw => ⟨fun hp => ⟨fun hf => ?grows, fun hf hq => ?quiet, fun hf hq => ?closes⟩, fun hp => ⟨?gone, ?limit⟩⟩,
    fun g c out rest r hheld hout hrest => ⟨fun hl => ?releases, fun w hw hl => releaseAfter_of_short hw hl⟩⟩
  case unflagged => rw [updateWindow_of_none hw, hf]; rfl
  case opens =>
    obtain ⟨x, xs, hx⟩ : ∃ x xs, before ++ [h] = x :: xs := by
      cases before with
      | nil => exact ⟨h, [], rfl⟩
      | cons x xs => exact ⟨x, xs ++ [h], rfl⟩
    have hxle : x.pos ≤ h.pos := by
      cases before with
      | nil => obtain ⟨rfl, -⟩ := List.cons.inj hx; exact Nat.le_refl _
      | cons y ys =>
          obtain ⟨rfl, -⟩ := List.cons.inj hx
          exact Nat.le_of_lt (List.rel_of_pairwise_cons hsorted (by simp))
    have hc : r.ctx.click.held = x :: xs := hheld.trans hx
    obtain ⟨s, hs⟩ : ∃ s, s = windowStart p.guard r.ctx.click h.pos := ⟨_, rfl⟩
    have hsle : s ≤ h.pos := hs ▸ windowStart_le hc hxle hprev
    obtain ⟨hguard, hfirst, hpe⟩ := hs ▸ le_windowStart (guard := p.guard) (n := h.pos) hc
    have hatt := hs ▸ windowStart_attained (guard := p.guard) (n := h.pos) hc
    obtain ⟨first, rest, hd⟩ : ∃ first rest, (r.ctx.click.held.dropWhile fun x => decide (x.pos < s)) = first :: rest := by
      rcases hdr : (r.ctx.click.held.dropWhile fun x => decide (x.pos < s)) with _ | ⟨a, as⟩
      · have := List.dropWhile_eq_nil_iff.1 hdr h (by rw [hheld]; simp)
        simp only [decide_eq_true_eq] at this
        omega
      · exact ⟨a, as, hdr⟩
    obtain ⟨out, hout⟩ : ∃ out, out = r.ctx.click.held.takeWhile fun x => decide (x.pos < s) := ⟨_, rfl⟩
    have hopen := openWindow_eq (p := p) (h := h) (first := first) (rest := rest) (r := r) (hs ▸ hd)
    rw [← hs, ← hout] at hopen
    refine ⟨out, first, rest, openedWindow p h s first.span (passAll out (withHeld (first :: rest) r)).ctx.click.lastOut (first :: rest),
      passAll out (withHeld (first :: rest) r), ?_, fun y hy => ?_, ?_, hsle, hguard, hpe, fun y hy => ?_, ?_, rfl, rfl, rfl, rfl, rfl,
      decide_eq_true_iff, rfl, rfl, ?_, rfl, ?_⟩
    · rw [← hheld, hout, ← hd, List.takeWhile_append_dropWhile]
    · have := List.mem_takeWhile_imp (hout ▸ hy)
      exact of_decide_eq_true this
    · have := dropWhile_cons_not hd
      exact Nat.le_of_not_lt (of_decide_eq_false this)
    · rw [hx] at hy
      obtain rfl := Option.some.inj hy
      exact hfirst
    · rw [hx]
      rcases hatt with h1 | h1 | h1
      · exact Or.inl h1
      · exact Or.inr (Or.inl h1)
      · exact Or.inr (Or.inr ⟨x, rfl, h1⟩)
    · refine (passAll_lastOut out _).trans ?_
      cases out.getLast? <;> rfl
    · rw [updateWindow_of_none hw, if_pos hf, hopen]
      rfl
  case grows =>
    rw [updateWindow_of_flagged hw hp hf, ← growWindow_content]
    rfl
  case quiet =>
    rw [updateWindow_of_quiet hw hp hf, if_neg hq]
    rfl
  case closes =>
    rw [updateWindow_of_quiet hw hp hf, if_pos hq, quietWindow, hq]
  case gone =>
    obtain ⟨_, h1⟩ := closeWindow_click w (w.start + 4095) false r
    rw [h1]
    rfl
  case limit =>
    obtain ⟨_, h1⟩ := closeWindow_click w (w.start + 4095) false r
    rw [updateWindow_of_limit hw hp, updateWindow_of_none (r := closeWindow w (w.start + 4095) false r) (by rw [h1]; rfl)]
    rfl
  case releases =>
    obtain ⟨ht, hd⟩ := takeWhile_of_split (p := fun x : Held => decide (x.pos + g ≤ c)) (out := out) (rest := rest)
      (fun x hx => by simpa using hout x hx) (fun x hx => by simpa using hrest x hx)
    rw [releaseAfter_of_open hl, releaseWhile_eq, hheld, ht, hd]
    rfl

end Sys2Proof.Machine
end

section
/-! PROOFS. The hold-back: what leaves it is handed on once, in order, and it stays bounded (R59, R68 to R71, R78 to R82). -/

namespace Sys2Proof.Machine

/-! ## What leaves the held-sample store is handed on -/

/-- The containers of the samples `out` have been handed on, and nothing of the reel's course has changed. -/
structure Handed (out : List Held) (r s : Run) : Prop where
  position : s.ctx.position = r.ctx.position
  reelEnd : s.ctx.reelEnd = r.ctx.reelEnd
  containers : containersOf s.emits = containersOf r.emits ++ out.map fun h => (h.span, h.pos - h.span)

theorem containersOf_append (es fs : List Emit) : containersOf (es ++ fs) = containersOf es ++ containersOf fs :=
  List.filterMap_append

theorem Handed.trans {o p : List Held} {r s t : Run} (h : Handed o r s) (g : Handed p s t) : Handed (o ++ p) r t :=
  ⟨g.position.trans h.position, g.reelEnd.trans h.reelEnd, by
    rw [g.containers, h.containers, List.map_append, List.append_assoc]⟩

theorem handed_of_emits {r s : Run} (hp : s.ctx.position = r.ctx.position) (hr : s.ctx.reelEnd = r.ctx.reelEnd) {es : List Emit}
    (he : s.emits = r.emits ++ es) (hn : containersOf es = []) : Handed [] r s :=
  ⟨hp, hr, by rw [he, containersOf_append, hn]; rfl⟩

theorem Handed.refl (r : Run) : Handed [] r r := handed_of_emits rfl rfl (List.append_nil _).symm rfl

theorem handed_tallyRun (span : Nat) (f : Tally → Tally) (r : Run) : Handed [] r (tallyRun span f r) :=
  handed_of_emits rfl rfl (List.append_nil _).symm rfl

theorem handed_clickRun (f : ClickState → ClickState) (r : Run) : Handed [] r (clickRun f r) :=
  handed_of_emits rfl rfl (List.append_nil _).symm rfl

theorem handed_completeSpans (ts : List Tally) (r : Run) : Handed [] r (completeSpans ts r) := by
  induction ts generalizing r with
  | nil => exact .refl r
  | cons t ts ih =>
      unfold completeSpans
      split
      · exact (handed_of_emits (r := r) (s := leaveOldest t r) (es := [.complete t.start t]) rfl rfl rfl rfl).trans (ih _)
      · exact .refl r

theorem handed_handEntry (span start length : Nat) (kind : Kind) (c : Content) (r : Run) :
    Handed [] r (handEntry span start length kind c r) := by
  unfold handEntry
  dsimp only
  split
  · exact handed_tallyRun ..
  · split
    · exact handed_of_emits (es := [.logEntry ..]) rfl rfl rfl rfl
    · exact (handed_tallyRun _ _ r).trans (handed_tallyRun ..)

theorem handed_releaseSample (h : Held) (w : Sample) (r : Run) : Handed [h] r (releaseSample h w r) := by
  have hm : Handed [h] r (formattedRun h w r) := ⟨rfl, rfl, containersOf_append r.emits [.container ..]⟩
  exact hm.trans (handed_completeSpans ..)

theorem handed_passSample (h : Held) (r : Run) : Handed [h] r (passSample h r) := by
  unfold passSample
  split
  · exact (handed_tallyRun _ _ r).trans (handed_releaseSample ..)
  · exact handed_releaseSample ..

theorem handed_passAll (hs : List Held) (r : Run) : Handed hs r (passAll hs r) := by
  induction hs generalizing r with
  | nil => exact .refl r
  | cons h hs ih => exact (handed_passSample h r).trans (ih _)

theorem handed_repairAll (left right : Option Int) (len i : Nat) (hs : List Held) (r : Run) :
    Handed hs r (repairAll left right len i hs r) := by
  induction hs generalizing i r with
  | nil => exact .refl r
  | cons h hs ih => exact ((handed_tallyRun _ _ r).trans (handed_releaseSample h _ _)).trans (ih _ _)

/-- The samples that have left the store are its oldest, and each has been handed on. -/
def HandsOn (r s : Run) : Prop :=
  ∃ out, r.ctx.click.held = out ++ s.ctx.click.held ∧ Handed out r s

theorem HandsOn.refl (r : Run) : HandsOn r r := ⟨[], rfl, .refl r⟩

theorem HandsOn.trans {r s t : Run} (h : HandsOn r s) (g : HandsOn s t) : HandsOn r t := by
  obtain ⟨o, ho, h⟩ := h
  obtain ⟨p, hp, g⟩ := g
  exact ⟨o ++ p, by rw [ho, hp, List.append_assoc], h.trans g⟩

theorem handsOn_setWindow (w : Option Window) (r : Run) : HandsOn r (clickRun (fun c => { c with window := w }) r) :=
  ⟨[], rfl, handed_clickRun ..⟩

theorem handsOn_releaseWhile (within : Nat → Bool) (r : Run) : HandsOn r (releaseWhile within r) := by
  obtain ⟨_, hc⟩ := releaseWhile_click within r
  refine ⟨r.ctx.click.held.takeWhile fun h => within h.pos, ?_, ?_⟩
  · rw [hc]; exact List.takeWhile_append_dropWhile.symm
  · rw [releaseWhile_eq]
    exact (handed_clickRun _ r).trans (handed_passAll ..)

theorem handed_closedRun (w : Window) (e : Nat) (r : Run) : Handed [] r (closedRun w e r) :=
  ((handed_handEntry _ _ _ _ _ r).trans (handed_clickRun ..)).trans (handed_completeSpans ..)

theorem handsOn_closeWindow (w : Window) (e : Nat) (flush : Bool) (r : Run) : HandsOn r (closeWindow w e flush r) := by
  obtain ⟨_, hc⟩ := closeWindow_click w e flush r
  refine ⟨r.ctx.click.held.takeWhile fun h => decide (h.pos ≤ e), ?_, ?_⟩
  · rw [hc]; exact List.takeWhile_append_dropWhile.symm
  · rw [closeWindow_eq]
    split
    · exact (handed_closedRun w e r).trans (handed_passAll ..)
    · exact (handed_closedRun w e r).trans (handed_repairAll ..)

/-- The opening of a window releases what is held before its start. -/
theorem openWindow_form (p : Profile) (h : Held) (r : Run) : ∃ w, openWindow p h r =
    clickRun (fun c => { c with window := some w }) (releaseWhile (fun q => decide (q < windowStart p.guard r.ctx.click h.pos)) r) ∧
      w.start = windowStart p.guard r.ctx.click h.pos ∧ w.nlast = h.pos ∧ w.quiet = 0 ∧
      w.long = tooLong w.start h.pos p.guard p.repairMax ∧ w.guard = p.guard ∧ w.longest = p.repairMax :=
  ⟨_, rfl, rfl, rfl, rfl, rfl, rfl, rfl⟩

theorem handsOn_noWindow (p : Profile) (h : Held) (r : Run) : HandsOn r (noWindow p h r) := by
  unfold noWindow
  split
  · obtain ⟨w, hw, -⟩ := openWindow_form p h r
    rw [hw]
    exact (handsOn_releaseWhile _ r).trans (handsOn_setWindow _ _)
  · exact .refl r

theorem handsOn_updateWindow (p : Profile) (h : Held) (r : Run) : HandsOn r (updateWindow p h r) := by
  unfold updateWindow
  split
  · exact handsOn_noWindow p h r
  · next w _ =>
      split
      · exact (handsOn_closeWindow ..).trans (handsOn_noWindow ..)
      · split
        · exact handsOn_setWindow ..
        · dsimp only
          split
          · exact handsOn_closeWindow ..
          · exact handsOn_setWindow ..

theorem handsOn_flushClick (n : Nat) (r : Run) : HandsOn r (flushClick n r) := by
  unfold flushClick
  dsimp only
  split
  · exact handsOn_releaseWhile ..
  · exact (handsOn_closeWindow ..).trans (handsOn_releaseWhile ..)

theorem handsOn_releaseAfter (g c : Nat) (r : Run) : HandsOn r (releaseAfter g c r) := by
  unfold releaseAfter
  split
  · exact handsOn_releaseWhile ..
  · split
    · exact handsOn_releaseWhile ..
    · exact .refl r

/-! ## The held samples are the latest (R79) -/

/-- The held samples are the last ones before `n`, in order. -/
def HeldUpTo (hs : List Held) (n : Nat) : Prop :=
  hs.length ≤ n ∧ hs.map Held.pos = List.range' (n - hs.length) hs.length

theorem HeldUpTo.push {hs : List Held} {n : Nat} {h : Held} (hh : HeldUpTo hs n) (hp : h.pos = n) : HeldUpTo (hs ++ [h]) (n + 1) := by
  obtain ⟨hl, hm⟩ := hh
  refine ⟨by simpa using hl, ?_⟩
  rw [List.map_append, hm, List.length_append, List.length_singleton, Nat.add_sub_add_right, List.range'_concat]
  simp only [List.map_cons, List.map_nil, hp]
  congr 2
  omega

theorem HeldUpTo.suffix {out hs : List Held} {n : Nat} (h : HeldUpTo (out ++ hs) n) : HeldUpTo hs n := by
  obtain ⟨hl, hm⟩ := h
  rw [List.length_append] at hl hm
  refine ⟨by omega, ?_⟩
  have hd := congrArg (List.drop out.length) hm
  rw [List.map_append, List.drop_left' (by simp), List.drop_range'] at hd
  rw [hd]
  congr 1 <;> omega

theorem HeldUpTo.head {x : Held} {xs : List Held} {n : Nat} (h : HeldUpTo (x :: xs) n) : x.pos + (x :: xs).length = n := by
  obtain ⟨hl, hm⟩ := h
  rw [List.length_cons, List.range'_succ, List.map_cons] at hm
  obtain ⟨hx, -⟩ := List.cons.inj hm
  rw [List.length_cons] at hl ⊢
  omega

/-- Of the samples before `n`, those from `s` on stay. -/
theorem HeldUpTo.length_dropWhile {hs : List Held} {n s : Nat} {p : Held → Bool} (h : HeldUpTo hs n)
    (hp : ∀ x, p x = true ↔ x.pos < s) : (hs.dropWhile p).length = min hs.length (n - s) := by
  induction hs with
  | nil => simp
  | cons x xs ih =>
      have hx := h.head
      rw [List.length_cons] at hx ⊢
      rw [List.dropWhile_cons]
      split
      · next hlt =>
          have := (hp x).1 hlt
          rw [ih (HeldUpTo.suffix (out := [x]) h)]
          omega
      · next hge =>
          have : ¬ x.pos < s := fun hlt => hge ((hp x).2 hlt)
          rw [List.length_cons]
          omega

/-! ## The bounds through one sample -/

/-- The Click Repairer between the window work of a sample and its releases (R67 steps 7 and 8). -/
def ClickReady (c : ClickState) (n : Nat) : Prop :=
  HeldUpTo c.held n ∧ (∀ e, c.prevEnd = some e → e < n) ∧ ∀ w, c.window = some w →
    w.guard ≤ 3 ∧ w.longest ≤ 96 ∧ w.quiet ≤ 3 ∧ w.start ≤ w.nlast ∧ n = w.nlast + w.quiet + 1 ∧
      (w.long = false → w.start + c.held.length = n ∧ w.nlast + w.guard + 1 - w.start ≤ w.longest)

theorem HandsOn.heldUpTo {r s : Run} {n : Nat} (h : HandsOn r s) (hr : HeldUpTo r.ctx.click.held n) : HeldUpTo s.ctx.click.held n := by
  obtain ⟨out, ho, -⟩ := h
  rw [ho] at hr
  exact hr.suffix

theorem clickHolds_of_short {c : ClickState} {n : Nat} (hh : HeldUpTo c.held n) (hp : ∀ e, c.prevEnd = some e → e < n)
    (hl : c.held.length ≤ 3) (hw : ∀ w, c.window = some w → w.long = true ∧ w.guard ≤ 3 ∧ w.longest ≤ 96 ∧ w.quiet ≤ 3 ∧
      w.start ≤ w.nlast ∧ n = w.nlast + w.quiet + 1) : ClickHolds c n := by
  refine ⟨hh.1, hh.2, hp, ?_⟩
  rcases Option.eq_none_or_eq_some c.window with h | ⟨w, h⟩
  · rw [h]; exact hl
  · rw [h]
    obtain ⟨h1, h2, h3, h4, h5, h6⟩ := hw w h
    exact ⟨h2, h3, h4, h5, h6, by rw [if_pos h1]; exact hl⟩

/-- The releases after the sample at `n` bring the held samples back within their bounds (R78, R80). -/
theorem clickHolds_releaseAfter {g n : Nat} {r : Run} (hg : g ≤ 3) (h : ClickReady r.ctx.click (n + 1)) :
    ClickHolds (releaseAfter g n r).ctx.click (n + 1) := by
  have hon := (handsOn_releaseAfter g n r).heldUpTo h.1
  obtain ⟨hh, hp, hw⟩ := h
  by_cases hl : ∀ w, r.ctx.click.window = some w → w.long = true
  · obtain ⟨_, hc⟩ := releaseWhile_click (fun q => decide (q + g ≤ n)) r
    rw [releaseAfter_of_open hl] at hon ⊢
    have hlen : (releaseWhile (fun q => decide (q + g ≤ n)) r).ctx.click.held.length ≤ 3 := by
      rw [hc]
      refine (Nat.le_of_eq (hh.length_dropWhile (s := n + 1 - g) fun x => ?_)).trans (by omega)
      simp only [decide_eq_true_eq]
      omega
    refine clickHolds_of_short hon (by rw [hc]; exact hp) hlen fun w hw' => ?_
    rw [hc] at hw'
    obtain ⟨h1, h2, h3, h4, h5, -⟩ := hw w hw'
    exact ⟨hl w hw', h1, h2, h3, h4, h5⟩
  · obtain ⟨w, hwin, hshort⟩ : ∃ w, r.ctx.click.window = some w ∧ w.long = false := by
      push Not at hl
      obtain ⟨w, h1, h2⟩ := hl
      exact ⟨w, h1, by simpa using h2⟩
    rw [releaseAfter_of_short hwin hshort]
    obtain ⟨h1, h2, h3, h4, h5, h6⟩ := hw w hwin
    refine ⟨hh.1, hh.2, hp, ?_⟩
    rw [hwin]
    exact ⟨h1, h2, h3, h4, h5, by rw [if_neg (by simp [hshort])]; exact h6 hshort⟩

/-- A sample handled with no window open leaves the store within its bounds (R68). -/
theorem clickReady_noWindow {p : Profile} {h : Held} {n : Nat} {r : Run} (hg : p.guard ≤ 3) (hm : p.repairMax ≤ 96)
    (hw : r.ctx.click.window = none) (hh : HeldUpTo r.ctx.click.held (n + 1)) (hne : r.ctx.click.held ≠ []) (hn : h.pos = n)
    (hp : ∀ e, r.ctx.click.prevEnd = some e → e < n) : ClickReady (noWindow p h r).ctx.click (n + 1) := by
  have hon := (handsOn_noWindow p h r).heldUpTo hh
  unfold noWindow at hon ⊢
  split at hon
  · next hf =>
      rw [if_pos hf]
      obtain ⟨x, xs, hx⟩ := List.exists_cons_of_ne_nil hne
      have hhead := (hx ▸ hh).head
      have hlen : (x :: xs).length = r.ctx.click.held.length := by rw [hx]
      rw [hlen] at hhead
      have hpos : 0 < r.ctx.click.held.length := by rw [hx]; exact Nat.succ_pos _
      obtain ⟨s, hs⟩ : ∃ s, s = windowStart p.guard r.ctx.click h.pos := ⟨_, rfl⟩
      have hsle : s ≤ n := by
        rw [hs, hn]; exact windowStart_le hx (by omega) hp
      obtain ⟨-, hfirst, -⟩ := hs ▸ le_windowStart (guard := p.guard) (n := h.pos) hx
      obtain ⟨w, hopen, h1, h2, h3, h4, h5, h6⟩ := openWindow_form p h r
      obtain ⟨_, hc⟩ := releaseWhile_click (fun q => decide (q < windowStart p.guard r.ctx.click h.pos)) r
      rw [← hs] at hopen h1 hc
      have hheld := hh.length_dropWhile (s := s) (p := fun x => decide (x.pos < s)) fun x => by simp
      have hclick : (openWindow p h r).ctx.click = { (releaseWhile (fun q => decide (q < s)) r).ctx.click with window := some w } := by
        rw [hopen]; rfl
      have hheld' : (openWindow p h r).ctx.click.held.length = n + 1 - s := by
        rw [hclick, hc]
        refine hheld.trans ?_
        omega
      refine ⟨hon, fun e he => ?_, fun v hv => ?_⟩
      · rw [hclick, hc] at he
        exact (hp e he).trans (Nat.lt_succ_self n)
      · obtain rfl : w = v := by
          rw [hclick] at hv
          exact Option.some.inj hv
        refine ⟨by omega, by omega, by omega, by omega, by omega, fun hl => ⟨by omega, ?_⟩⟩
        rw [h4] at hl
        have := of_decide_eq_false hl
        omega
  · next hf =>
      rw [if_neg hf]
      refine ⟨hh, fun e he => (hp e he).trans (Nat.lt_succ_self n), fun w hw' => ?_⟩
      rw [hw] at hw'
      simp at hw'

/-- The window work of the sample at `n` (R69 to R71). -/
theorem clickReady_updateWindow {p : Profile} {h : Held} {n : Nat} {r : Run} {c : ClickState} (hg : p.guard ≤ 3)
    (hm : p.repairMax ≤ 96) (hc : ClickHolds c n) (hheld : r.ctx.click.held = c.held ++ [h]) (hwin : r.ctx.click.window = c.window)
    (hprev : r.ctx.click.prevEnd = c.prevEnd) (hn : h.pos = n) : ClickReady (updateWindow p h r).ctx.click (n + 1) := by
  obtain ⟨hl, hpos, hp, hw⟩ := hc
  have hh : HeldUpTo r.ctx.click.held (n + 1) := by rw [hheld]; exact HeldUpTo.push ⟨hl, hpos⟩ hn
  have hlen : r.ctx.click.held.length = c.held.length + 1 := by rw [hheld, List.length_append, List.length_singleton]
  have hp' : ∀ e, r.ctx.click.prevEnd = some e → e < n + 1 := fun e he => (hp e (hprev ▸ he)).trans (Nat.lt_succ_self n)
  have hclosed : ∀ (w : Window) (e : Nat), HeldUpTo (closeWindow w e false r).ctx.click.held (n + 1) ∧
      (closeWindow w e false r).ctx.click.window = none ∧ (closeWindow w e false r).ctx.click.prevEnd = some e ∧
      (closeWindow w e false r).ctx.click.held.length = min r.ctx.click.held.length (n - e) := by
    intro w e
    obtain ⟨_, hcl⟩ := closeWindow_click w e false r
    refine ⟨(handsOn_closeWindow w e false r).heldUpTo hh, by rw [hcl]; rfl, by rw [hcl]; rfl, ?_⟩
    rw [hcl]
    refine (hh.length_dropWhile (s := e + 1) (p := fun x => decide (x.pos ≤ e)) fun x => ?_).trans (by omega)
    rw [decide_eq_true_eq]
    omega
  rcases Option.eq_none_or_eq_some c.window with hcw | ⟨w, hcw⟩
  · have hnone : r.ctx.click.window = none := hwin.trans hcw
    have e : updateWindow p h r = noWindow p h r := by rw [updateWindow_of_none hnone]; rfl
    rw [e]
    exact clickReady_noWindow hg hm hnone hh (by rw [hheld]; simp) hn (fun e he => hp e (hprev ▸ he))
  · have hsome : r.ctx.click.window = some w := hwin.trans hcw
    rw [hcw] at hw
    obtain ⟨h1, h2, h3, h4, h5, h6⟩ := hw
    have h6' : w.long = false → w.start + c.held.length = n ∧ w.nlast + w.guard + 1 - w.start ≤ w.longest := fun hf => by
      rw [hf] at h6; exact h6
    by_cases hlim : h.pos = w.start + 4096
    · rw [updateWindow_of_limit hsome hlim]
      obtain ⟨g1, g2, g3, g4⟩ := hclosed w (w.start + 4095)
      refine clickReady_noWindow hg hm g2 g1 (fun hnil => ?_) hn fun e he => ?_
      · rw [hnil, List.length_nil] at g4
        omega
      · rw [g3] at he
        have := Option.some.inj he
        omega
    · cases hf : h.flagged with
      | true =>
          rw [updateWindow_of_flagged hsome hlim hf]
          refine ⟨hh, hp', fun v hv => ?_⟩
          obtain rfl : growWindow h w = v := Option.some.inj hv
          refine ⟨h1, h2, Nat.zero_le 3, ?_, ?_, fun hlong => ?_⟩
          · show w.start ≤ h.pos; omega
          · show n + 1 = h.pos + 0 + 1; omega
          · have hlong : (w.long || tooLong w.start h.pos w.guard w.longest) = false := hlong
            rw [Bool.or_eq_false_iff] at hlong
            obtain ⟨hs, -⟩ := h6' hlong.1
            have := of_decide_eq_false hlong.2
            refine ⟨?_, ?_⟩
            · show w.start + r.ctx.click.held.length = n + 1; omega
            · show h.pos + w.guard + 1 - w.start ≤ w.longest; omega
      | false =>
          rw [updateWindow_of_quiet hsome hlim hf]
          split
          · obtain ⟨g1, g2, g3, -⟩ := hclosed (quietWindow h w) (w.nlast + w.guard)
            refine ⟨g1, fun e he => ?_, fun v hv => ?_⟩
            · rw [g3] at he
              have := Option.some.inj he
              omega
            · rw [g2] at hv
              simp at hv
          · next hq =>
              refine ⟨hh, hp', fun v hv => ?_⟩
              obtain rfl : quietWindow h w = v := Option.some.inj hv
              refine ⟨h1, h2, ?_, h4, ?_, fun hlong => ⟨?_, (h6' hlong).2⟩⟩
              · show w.quiet + 1 ≤ 3; omega
              · show n + 1 = w.nlast + (w.quiet + 1) + 1; omega
              · have := (h6' hlong).1
                show w.start + r.ctx.click.held.length = n + 1
                omega

theorem length_held_of_clickHolds {c : ClickState} {n : Nat} (h : ClickHolds c n) : c.held.length ≤ 100 := by
  obtain ⟨-, -, -, hw⟩ := h
  rcases Option.eq_none_or_eq_some c.window with hn | ⟨w, hs⟩
  · rw [hn] at hw
    exact hw.trans (by decide)
  · rw [hs] at hw
    obtain ⟨h1, h2, h3, h4, h5, h6⟩ := hw
    split at h6
    · omega
    · omega

/-! ## One sample -/

section step

variable {sp : SpanInfo} {row : LaneRow} {r : Run}

/-- The run of a sample after its window work (R67 step 7). -/
def windowed (sp : SpanInfo) (row : LaneRow) (r : Run) : Run :=
  updateWindow r.ctx.profile (frontStages sp row r).1 (frontStages sp row r).2

theorem sampleStep_eq : sampleStep sp r row = releaseAfter r.ctx.profile.guard r.ctx.position
    (if r.ctx.position = lastPosition sp ∧ sp.last = true then flushReel (lastPosition sp) (windowed sp row r)
      else windowed sp row r) := rfl

theorem sampleStep_within (h : r.ctx.position ≠ lastPosition sp ∨ sp.last = false) :
    sampleStep sp r row = releaseAfter r.ctx.profile.guard r.ctx.position (windowed sp row r) := by
  have hn : ¬ (r.ctx.position = lastPosition sp ∧ sp.last = true) := by
    rintro ⟨h1, h2⟩
    rcases h with h | h
    · exact h h1
    · rw [h2] at h; cases h
  rw [sampleStep_eq, if_neg hn]

/-- With nothing held and no window open nothing is released. -/
theorem releaseAfter_of_empty {g c : Nat} {t : Run} (hh : t.ctx.click.held = []) (hw : t.ctx.click.window = none) :
    releaseAfter g c t = t := by
  rw [releaseAfter_of_open fun w hs => by rw [hw] at hs; simp at hs, releaseWhile_eq, hh]
  show withHeld [] t = t
  rw [← hh]
  rfl

theorem sampleStep_flushes (h1 : r.ctx.position = lastPosition sp) (h2 : sp.last = true) :
    sampleStep sp r row = flushReel (lastPosition sp) (windowed sp row r) := by
  obtain ⟨_, _, hc, -⟩ := flushClick_click (lastPosition sp) (windowed sp row r)
  rw [sampleStep_eq, if_pos ⟨h1, h2⟩]
  exact releaseAfter_of_empty (by show (flushClick _ _).ctx.click.held = _; rw [hc])
    (by show (flushClick _ _).ctx.click.window = _; rw [hc])

theorem handsOn_sampleStep : ∃ out, (frontStages sp row r).2.ctx.click.held = out ++ (sampleStep sp r row).ctx.click.held ∧
    containersOf (sampleStep sp r row).emits = containersOf r.emits ++ out.map (fun h => (h.span, h.pos - h.span)) ∧
    (sampleStep sp r row).ctx.position = r.ctx.position + 1 := by
  have hfront : HandsOn (frontStages sp row r).2 (windowed sp row r) := handsOn_updateWindow ..
  have hemits : (frontStages sp row r).2.emits = r.emits := by rw [frontStages_run]
  have hposition : (frontStages sp row r).2.ctx.position = r.ctx.position + 1 := by rw [frontStages_run]
  by_cases h : r.ctx.position = lastPosition sp ∧ sp.last = true
  · obtain ⟨out, ho, hp, -, hc⟩ := hfront.trans (handsOn_flushClick (lastPosition sp) _)
    rw [sampleStep_flushes h.1 h.2]
    exact ⟨out, ho, hc.trans (by rw [hemits]), hp.trans hposition⟩
  · obtain ⟨out, ho, hp, -, hc⟩ := hfront.trans (handsOn_releaseAfter r.ctx.profile.guard r.ctx.position _)
    have hor : r.ctx.position ≠ lastPosition sp ∨ sp.last = false := by
      by_cases h1 : r.ctx.position = lastPosition sp
      · exact Or.inr (by simpa [h1] using h)
      · exact Or.inl h1
    rw [sampleStep_within hor]
    exact ⟨out, ho, hc.trans (by rw [hemits]), hp.trans hposition⟩

end step

/-- Settles O54: `HandsOn` through every operation for what leaves the store, `ClickReady` for its bounds. -/
theorem holdBackBounded : Obligations.HoldBackBounded := by
  unfold Obligations.HoldBackBounded
  intro sp row r
  have hheld : (frontStages sp row r).2.ctx.click.held = r.ctx.click.held ++ [(frontStages sp row r).1] := by
    rw [frontStages_run]; rfl
  obtain ⟨out, ho, hcont, hpos⟩ := handsOn_sampleStep (sp := sp) (row := row) (r := r)
  refine ⟨fun hp hc => ?bounded, ⟨out, hheld ▸ ho, hcont⟩, fun h1 h2 => ?flush, fun h => ⟨?reelEnd, sampleStep_within h⟩⟩
  case bounded =>
    obtain ⟨-, -, -, -, -, -, hg, ⟨-, hm⟩, -⟩ := hp
    have hready : ClickReady (windowed sp row r).ctx.click (r.ctx.position + 1) :=
      clickReady_updateWindow hg hm hc hheld (by rw [frontStages_run]; rfl) (by rw [frontStages_run]; rfl) rfl
    have hholds : ClickHolds (sampleStep sp r row).ctx.click (r.ctx.position + 1) := by
      by_cases h : r.ctx.position = lastPosition sp ∧ sp.last = true
      · rw [sampleStep_flushes h.1 h.2]
        obtain ⟨pe, lo, hclick, hpe⟩ := flushClick_click (lastPosition sp) (windowed sp row r)
        obtain ⟨-, hprev, -⟩ := hready
        show ClickHolds (flushClick (lastPosition sp) (windowed sp row r)).ctx.click _
        rw [hclick]
        refine clickHolds_of_short ⟨Nat.zero_le _, rfl⟩ (fun e he => ?_) (Nat.zero_le _) (by simp)
        rcases hpe with hpe | ⟨w, hpe, -⟩
        · exact hprev e (hpe ▸ he)
        · have he : pe = some e := he
          have := Option.some.inj (hpe.symm.trans he)
          omega
      · rw [sampleStep_within (by
          by_cases h1 : r.ctx.position = lastPosition sp
          · exact Or.inr (by simpa [h1] using h)
          · exact Or.inl h1)]
        exact clickHolds_releaseAfter hg hready
    exact ⟨hpos, hpos ▸ hholds, length_held_of_clickHolds hholds⟩
  case flush =>
    obtain ⟨_, _, hclick, -⟩ := flushClick_click (lastPosition sp) (windowed sp row r)
    rw [sampleStep_flushes h1 h2]
    refine ⟨by show (flushClick _ _).ctx.click.held = _; rw [hclick], by show (flushClick _ _).ctx.click.window = _; rw [hclick], rfl,
      fun f hf => ?_⟩
    rw [hf]
    rfl
  case reelEnd =>
    obtain ⟨_, -, -, hre, -⟩ := (handsOn_updateWindow r.ctx.profile (frontStages sp row r).1 (frontStages sp row r).2).trans
      (handsOn_releaseAfter r.ctx.profile.guard r.ctx.position _)
    rw [sampleStep_within h]
    exact hre.trans (by rw [frontStages_run])

end Sys2Proof.Machine
end
